-- ==== Sys2Proof/Word.lean ====
section
/-! DEFINITION. The fixed widths of the W65C832 (R7) and the three operating widths (R14). -/

namespace Sys2Proof

/-- A byte: what the 8-bit data bus moves, and the width of PBR and DBR (R7). -/
abbrev Byte := BitVec 8

/-- A 16-bit quantity: PC, S, D, and an address inside a bank (R7). -/
abbrev Half := BitVec 16

/-- A 32-bit quantity: A, X, Y, the ALU, and an effective address (R7, R15). -/
abbrev Word := BitVec 32

/-- An operating width: 8, 16 or 32 bits (R14, R34). -/
inductive Width where
  | w8
  | w16
  | w32
deriving DecidableEq, Repr

/-- The width in bits: `mw` or `xw` of R14. -/
def Width.bits : Width → Nat
  | .w8 => 8
  | .w16 => 16
  | .w32 => 32

/-- The width in bytes: `mb` or `xb` of R14. -/
def Width.bytes : Width → Nat
  | .w8 => 1
  | .w16 => 2
  | .w32 => 4

end Sys2Proof
end

