-- ==== Sys2Proof/Config.lean ====
section
/-! DEFINITION. What the spec leaves to the implementation (R8 to R10, 92_eei_decisions.md section 1) and the
free values. The parameters are plain data which the state carries, so that a statement over all states is a
statement over all their values; the spec's default for each is in `Config.default`. -/

namespace Sys2Proof

/-- `ADDR_BITS` (R8): how many bits of an effective address reach memory. -/
inductive AddrBits where
  | bits24
  | bits32
deriving DecidableEq, Repr

/-- The number of address bits (R8). -/
def AddrBits.bits : AddrBits → Nat
  | .bits24 => 24
  | .bits32 => 32

/-- `DECIMAL_V` (R193): what V holds after a decimal addition or subtraction. -/
inductive DecimalV where
  | draw
  | binary
deriving DecidableEq, Repr

/-- `MV_FINAL_C` (R338): the count register after the last byte of a block move. -/
inductive MvFinalC where
  | ffff
  | zero
deriving DecidableEq, Repr

/-- `ABORT_MODEL` (R378): whether the environment ever asserts ABORT-. -/
inductive AbortModel where
  | none
  | precise
deriving DecidableEq, Repr

/-- `IDX_HIGH_DRAW` (R27): bits 31:16 of X and Y at the step that widens the index from 16 to 32 bits. -/
inductive IdxHighDraw where
  | draw
  | zero
  | preserved
deriving DecidableEq, Repr

/-- The part of the state that reset does not initialise (R411): A, the low bytes of X, Y and S, and N, V, Z, C. -/
structure Uninit where
  a : Word
  xl : Byte
  yl : Byte
  sl : Byte
  n : Bool
  v : Bool
  z : Bool
  c : Bool
deriving DecidableEq, Repr

/-- `RESET_DRAW` (R411): what the part that reset does not initialise holds after a reset. -/
inductive ResetDraw where
  | draw
  | preserve
  | const (u : Uninit)
deriving DecidableEq, Repr

/-- The open parameters of the spec (R8, R9, R10), one value for a whole run. -/
structure Config where
  /-- `ADDR_BITS` (R8). -/
  addrBits : AddrBits
  /-- `XFE_OPCODE` (R9): the opcode byte of XFE, if it has one. -/
  xfeOpcode : Option Byte
  /-- `DECIMAL_V` (R193). -/
  decimalV : DecimalV
  /-- `MV_FINAL_C` (R338). -/
  mvFinalC : MvFinalC
  /-- `ABORT_MODEL` (R378). -/
  abortModel : AbortModel
  /-- `IDX_HIGH_DRAW` (R27). -/
  idxHigh : IdxHighDraw
  /-- `RESET_DRAW` (R411). -/
  resetDraw : ResetDraw
deriving DecidableEq, Repr

/-- The spec's default for every parameter (92_eei_decisions.md section 1). -/
def Config.default : Config where
  addrBits := .bits24
  xfeOpcode := none
  decimalV := .draw
  mvFinalC := .ffff
  abortModel := .none
  idxHigh := .draw
  resetDraw := .draw

/-- The free values: `draw(N)` of R16 is the low N bits of `freeValue k` for a `k` no earlier draw used. It has no
body, so nothing can be proved of any of its values (log 3). -/
opaque Config.freeValue : Nat → Word

/-- The byte an assembler puts after the opcode of BRK, COP or WDM written with no operand: the spec names none (R106,
R117), so it is free (log 23). The machine does not use it. -/
opaque Config.signatureByte : Byte

end Sys2Proof
end

