-- ==== Sys2Proof/Syntax.lean ====
section
/-! DEFINITION. The instructions: one constructor for each row of `spec/opcode_table.json` (the 256 cells of the
matrix R102, and XFE, R107), first the rows with operand bytes and then those without, each in the table's order
(compiled Lean numbers only the first 244 constructors that have fields). A constructor carries the operand bytes of its row, read as
R105 says and not yet resolved to an address. -/

namespace Sys2Proof

/-- An immediate operand: 1, 2 or 4 bytes, as wide as the register it meets (R103, R133). -/
inductive Imm where
  | b1 (v : Byte)
  | b2 (v : Half)
  | b4 (v : Word)
deriving DecidableEq, Repr

/-- The width of an immediate (R103). -/
def Imm.width : Imm → Width
  | .b1 _ => .w8
  | .b2 _ => .w16
  | .b4 _ => .w32

/-- The operand of a block move (R101, R103): the two bank bytes, destination first, or nothing at all in native
mode, where X and Y hold whole addresses (R330). -/
inductive BlockBanks where
  | banks (dst src : Byte)
  | native
deriving DecidableEq, Repr

/-- The instructions of the opcode table. The suffix of a name is the addressing mode, in the order the matrix
writes it: `Imm` `#`, `Acc` `A`, `Dir` `d`, `DirX` `d,x`, `DirY` `d,y`, `DirInd` `(d)`, `DirXInd` `(d,x)`,
`DirIndY` `(d),y`, `DirLong` `[d]`, `DirLongY` `[d],y`, `Stk` `d,s`, `StkIndY` `(d,s),y`, `Abs` `a`, `AbsX` `a,x`,
`AbsY` `a,y`, `AbsInd` `(a)`, `AbsXInd` `(a,x)`, `Long` `al`, `LongX` `al,x`. -/
inductive Instr where
  /-- `$00` BRK `s`, R340. -/
  | brk (sig : Byte)
  /-- `$01` ORA `(d,x)`, R198. -/
  | oraDirXInd (off : Byte)
  /-- `$02` COP `s`, R341. -/
  | cop (sig : Byte)
  /-- `$03` ORA `d,s`, R198. -/
  | oraStk (off : Byte)
  /-- `$04` TSB `d`, R215. -/
  | tsbDir (off : Byte)
  /-- `$05` ORA `d`, R198. -/
  | oraDir (off : Byte)
  /-- `$06` ASL `d`, R205. -/
  | aslDir (off : Byte)
  /-- `$07` ORA `[d]`, R198. -/
  | oraDirLong (off : Byte)
  /-- `$09` ORA `#`, R198. -/
  | oraImm (imm : Imm)
  /-- `$0C` TSB `a`, R215. -/
  | tsbAbs (addr : Half)
  /-- `$0D` ORA `a`, R198. -/
  | oraAbs (addr : Half)
  /-- `$0E` ASL `a`, R205. -/
  | aslAbs (addr : Half)
  /-- `$0F` ORA `al`, R198. -/
  | oraLong (addr : BitVec 24)
  /-- `$10` BPL `r`, R287. -/
  | bpl (off : Byte)
  /-- `$11` ORA `(d),y`, R198. -/
  | oraDirIndY (off : Byte)
  /-- `$12` ORA `(d)`, R198. -/
  | oraDirInd (off : Byte)
  /-- `$13` ORA `(d,s),y`, R198. -/
  | oraStkIndY (off : Byte)
  /-- `$14` TRB `d`, R216. -/
  | trbDir (off : Byte)
  /-- `$15` ORA `d,x`, R198. -/
  | oraDirX (off : Byte)
  /-- `$16` ASL `d,x`, R205. -/
  | aslDirX (off : Byte)
  /-- `$17` ORA `[d],y`, R198. -/
  | oraDirLongY (off : Byte)
  /-- `$19` ORA `a,y`, R198. -/
  | oraAbsY (addr : Half)
  /-- `$1C` TRB `a`, R216. -/
  | trbAbs (addr : Half)
  /-- `$1D` ORA `a,x`, R198. -/
  | oraAbsX (addr : Half)
  /-- `$1E` ASL `a,x`, R205. -/
  | aslAbsX (addr : Half)
  /-- `$1F` ORA `al,x`, R198. -/
  | oraLongX (addr : BitVec 24)
  /-- `$20` JSR `a`, R297. -/
  | jsrAbs (addr : Half)
  /-- `$21` AND `(d,x)`, R197. -/
  | andDirXInd (off : Byte)
  /-- `$22` JSL `al`, R299. -/
  | jsl (addr : BitVec 24)
  /-- `$23` AND `d,s`, R197. -/
  | andStk (off : Byte)
  /-- `$24` BIT `d`, R200. -/
  | bitDir (off : Byte)
  /-- `$25` AND `d`, R197. -/
  | andDir (off : Byte)
  /-- `$26` ROL `d`, R207. -/
  | rolDir (off : Byte)
  /-- `$27` AND `[d]`, R197. -/
  | andDirLong (off : Byte)
  /-- `$29` AND `#`, R197. -/
  | andImm (imm : Imm)
  /-- `$2C` BIT `a`, R200. -/
  | bitAbs (addr : Half)
  /-- `$2D` AND `a`, R197. -/
  | andAbs (addr : Half)
  /-- `$2E` ROL `a`, R207. -/
  | rolAbs (addr : Half)
  /-- `$2F` AND `al`, R197. -/
  | andLong (addr : BitVec 24)
  /-- `$30` BMI `r`, R286. -/
  | bmi (off : Byte)
  /-- `$31` AND `(d),y`, R197. -/
  | andDirIndY (off : Byte)
  /-- `$32` AND `(d)`, R197. -/
  | andDirInd (off : Byte)
  /-- `$33` AND `(d,s),y`, R197. -/
  | andStkIndY (off : Byte)
  /-- `$34` BIT `d,x`, R200. -/
  | bitDirX (off : Byte)
  /-- `$35` AND `d,x`, R197. -/
  | andDirX (off : Byte)
  /-- `$36` ROL `d,x`, R207. -/
  | rolDirX (off : Byte)
  /-- `$37` AND `[d],y`, R197. -/
  | andDirLongY (off : Byte)
  /-- `$39` AND `a,y`, R197. -/
  | andAbsY (addr : Half)
  /-- `$3C` BIT `a,x`, R200. -/
  | bitAbsX (addr : Half)
  /-- `$3D` AND `a,x`, R197. -/
  | andAbsX (addr : Half)
  /-- `$3E` ROL `a,x`, R207. -/
  | rolAbsX (addr : Half)
  /-- `$3F` AND `al,x`, R197. -/
  | andLongX (addr : BitVec 24)
  /-- `$41` EOR `(d,x)`, R199. -/
  | eorDirXInd (off : Byte)
  /-- `$42` WDM `i`, R346. -/
  | wdm (skipped : Byte)
  /-- `$43` EOR `d,s`, R199. -/
  | eorStk (off : Byte)
  /-- `$44` MVP `xyc`, R334. -/
  | mvp (banks : BlockBanks)
  /-- `$45` EOR `d`, R199. -/
  | eorDir (off : Byte)
  /-- `$46` LSR `d`, R206. -/
  | lsrDir (off : Byte)
  /-- `$47` EOR `[d]`, R199. -/
  | eorDirLong (off : Byte)
  /-- `$49` EOR `#`, R199. -/
  | eorImm (imm : Imm)
  /-- `$4C` JMP `a`, R292. -/
  | jmpAbs (addr : Half)
  /-- `$4D` EOR `a`, R199. -/
  | eorAbs (addr : Half)
  /-- `$4E` LSR `a`, R206. -/
  | lsrAbs (addr : Half)
  /-- `$4F` EOR `al`, R199. -/
  | eorLong (addr : BitVec 24)
  /-- `$50` BVC `r`, R288. -/
  | bvc (off : Byte)
  /-- `$51` EOR `(d),y`, R199. -/
  | eorDirIndY (off : Byte)
  /-- `$52` EOR `(d)`, R199. -/
  | eorDirInd (off : Byte)
  /-- `$53` EOR `(d,s),y`, R199. -/
  | eorStkIndY (off : Byte)
  /-- `$54` MVN `xyc`, R333. -/
  | mvn (banks : BlockBanks)
  /-- `$55` EOR `d,x`, R199. -/
  | eorDirX (off : Byte)
  /-- `$56` LSR `d,x`, R206. -/
  | lsrDirX (off : Byte)
  /-- `$57` EOR `[d],y`, R199. -/
  | eorDirLongY (off : Byte)
  /-- `$59` EOR `a,y`, R199. -/
  | eorAbsY (addr : Half)
  /-- `$5C` JMP `al`, R293. -/
  | jmpLong (addr : BitVec 24)
  /-- `$5D` EOR `a,x`, R199. -/
  | eorAbsX (addr : Half)
  /-- `$5E` LSR `a,x`, R206. -/
  | lsrAbsX (addr : Half)
  /-- `$5F` EOR `al,x`, R199. -/
  | eorLongX (addr : BitVec 24)
  /-- `$61` ADC `(d,x)`, R194. -/
  | adcDirXInd (off : Byte)
  /-- `$62` PER `s`, R261. -/
  | per (off : Half)
  /-- `$63` ADC `d,s`, R194. -/
  | adcStk (off : Byte)
  /-- `$64` STZ `d`, R177. -/
  | stzDir (off : Byte)
  /-- `$65` ADC `d`, R194. -/
  | adcDir (off : Byte)
  /-- `$66` ROR `d`, R208. -/
  | rorDir (off : Byte)
  /-- `$67` ADC `[d]`, R194. -/
  | adcDirLong (off : Byte)
  /-- `$69` ADC `#`, R194. -/
  | adcImm (imm : Imm)
  /-- `$6C` JMP `(a)`, R294. -/
  | jmpAbsInd (addr : Half)
  /-- `$6D` ADC `a`, R194. -/
  | adcAbs (addr : Half)
  /-- `$6E` ROR `a`, R208. -/
  | rorAbs (addr : Half)
  /-- `$6F` ADC `al`, R194. -/
  | adcLong (addr : BitVec 24)
  /-- `$70` BVS `r`, R289. -/
  | bvs (off : Byte)
  /-- `$71` ADC `(d),y`, R194. -/
  | adcDirIndY (off : Byte)
  /-- `$72` ADC `(d)`, R194. -/
  | adcDirInd (off : Byte)
  /-- `$73` ADC `(d,s),y`, R194. -/
  | adcStkIndY (off : Byte)
  /-- `$74` STZ `d,x`, R177. -/
  | stzDirX (off : Byte)
  /-- `$75` ADC `d,x`, R194. -/
  | adcDirX (off : Byte)
  /-- `$76` ROR `d,x`, R208. -/
  | rorDirX (off : Byte)
  /-- `$77` ADC `[d],y`, R194. -/
  | adcDirLongY (off : Byte)
  /-- `$79` ADC `a,y`, R194. -/
  | adcAbsY (addr : Half)
  /-- `$7C` JMP `(a,x)`, R295. -/
  | jmpAbsXInd (addr : Half)
  /-- `$7D` ADC `a,x`, R194. -/
  | adcAbsX (addr : Half)
  /-- `$7E` ROR `a,x`, R208. -/
  | rorAbsX (addr : Half)
  /-- `$7F` ADC `al,x`, R194. -/
  | adcLongX (addr : BitVec 24)
  /-- `$80` BRA `r`, R290. -/
  | bra (off : Byte)
  /-- `$81` STA `(d,x)`, R174. -/
  | staDirXInd (off : Byte)
  /-- `$82` BRL `rl`, R291. -/
  | brl (off : Half)
  /-- `$83` STA `d,s`, R174. -/
  | staStk (off : Byte)
  /-- `$84` STY `d`, R176. -/
  | styDir (off : Byte)
  /-- `$85` STA `d`, R174. -/
  | staDir (off : Byte)
  /-- `$86` STX `d`, R175. -/
  | stxDir (off : Byte)
  /-- `$87` STA `[d]`, R174. -/
  | staDirLong (off : Byte)
  /-- `$89` BIT `#`, R200. -/
  | bitImm (imm : Imm)
  /-- `$8C` STY `a`, R176. -/
  | styAbs (addr : Half)
  /-- `$8D` STA `a`, R174. -/
  | staAbs (addr : Half)
  /-- `$8E` STX `a`, R175. -/
  | stxAbs (addr : Half)
  /-- `$8F` STA `al`, R174. -/
  | staLong (addr : BitVec 24)
  /-- `$90` BCC `r`, R282. -/
  | bcc (off : Byte)
  /-- `$91` STA `(d),y`, R174. -/
  | staDirIndY (off : Byte)
  /-- `$92` STA `(d)`, R174. -/
  | staDirInd (off : Byte)
  /-- `$93` STA `(d,s),y`, R174. -/
  | staStkIndY (off : Byte)
  /-- `$94` STY `d,x`, R176. -/
  | styDirX (off : Byte)
  /-- `$95` STA `d,x`, R174. -/
  | staDirX (off : Byte)
  /-- `$96` STX `d,y`, R175. -/
  | stxDirY (off : Byte)
  /-- `$97` STA `[d],y`, R174. -/
  | staDirLongY (off : Byte)
  /-- `$99` STA `a,y`, R174. -/
  | staAbsY (addr : Half)
  /-- `$9C` STZ `a`, R177. -/
  | stzAbs (addr : Half)
  /-- `$9D` STA `a,x`, R174. -/
  | staAbsX (addr : Half)
  /-- `$9E` STZ `a,x`, R177. -/
  | stzAbsX (addr : Half)
  /-- `$9F` STA `al,x`, R174. -/
  | staLongX (addr : BitVec 24)
  /-- `$A0` LDY `#`, R173. -/
  | ldyImm (imm : Imm)
  /-- `$A1` LDA `(d,x)`, R171. -/
  | ldaDirXInd (off : Byte)
  /-- `$A2` LDX `#`, R172. -/
  | ldxImm (imm : Imm)
  /-- `$A3` LDA `d,s`, R171. -/
  | ldaStk (off : Byte)
  /-- `$A4` LDY `d`, R173. -/
  | ldyDir (off : Byte)
  /-- `$A5` LDA `d`, R171. -/
  | ldaDir (off : Byte)
  /-- `$A6` LDX `d`, R172. -/
  | ldxDir (off : Byte)
  /-- `$A7` LDA `[d]`, R171. -/
  | ldaDirLong (off : Byte)
  /-- `$A9` LDA `#`, R171. -/
  | ldaImm (imm : Imm)
  /-- `$AC` LDY `a`, R173. -/
  | ldyAbs (addr : Half)
  /-- `$AD` LDA `a`, R171. -/
  | ldaAbs (addr : Half)
  /-- `$AE` LDX `a`, R172. -/
  | ldxAbs (addr : Half)
  /-- `$AF` LDA `al`, R171. -/
  | ldaLong (addr : BitVec 24)
  /-- `$B0` BCS `r`, R283. -/
  | bcs (off : Byte)
  /-- `$B1` LDA `(d),y`, R171. -/
  | ldaDirIndY (off : Byte)
  /-- `$B2` LDA `(d)`, R171. -/
  | ldaDirInd (off : Byte)
  /-- `$B3` LDA `(d,s),y`, R171. -/
  | ldaStkIndY (off : Byte)
  /-- `$B4` LDY `d,x`, R173. -/
  | ldyDirX (off : Byte)
  /-- `$B5` LDA `d,x`, R171. -/
  | ldaDirX (off : Byte)
  /-- `$B6` LDX `d,y`, R172. -/
  | ldxDirY (off : Byte)
  /-- `$B7` LDA `[d],y`, R171. -/
  | ldaDirLongY (off : Byte)
  /-- `$B9` LDA `a,y`, R171. -/
  | ldaAbsY (addr : Half)
  /-- `$BC` LDY `a,x`, R173. -/
  | ldyAbsX (addr : Half)
  /-- `$BD` LDA `a,x`, R171. -/
  | ldaAbsX (addr : Half)
  /-- `$BE` LDX `a,y`, R172. -/
  | ldxAbsY (addr : Half)
  /-- `$BF` LDA `al,x`, R171. -/
  | ldaLongX (addr : BitVec 24)
  /-- `$C0` CPY `#`, R203. -/
  | cpyImm (imm : Imm)
  /-- `$C1` CMP `(d,x)`, R201. -/
  | cmpDirXInd (off : Byte)
  /-- `$C2` REP `#`, R318. -/
  | rep (mask : Byte)
  /-- `$C3` CMP `d,s`, R201. -/
  | cmpStk (off : Byte)
  /-- `$C4` CPY `d`, R203. -/
  | cpyDir (off : Byte)
  /-- `$C5` CMP `d`, R201. -/
  | cmpDir (off : Byte)
  /-- `$C6` DEC `d`, R210. -/
  | decDir (off : Byte)
  /-- `$C7` CMP `[d]`, R201. -/
  | cmpDirLong (off : Byte)
  /-- `$C9` CMP `#`, R201. -/
  | cmpImm (imm : Imm)
  /-- `$CC` CPY `a`, R203. -/
  | cpyAbs (addr : Half)
  /-- `$CD` CMP `a`, R201. -/
  | cmpAbs (addr : Half)
  /-- `$CE` DEC `a`, R210. -/
  | decAbs (addr : Half)
  /-- `$CF` CMP `al`, R201. -/
  | cmpLong (addr : BitVec 24)
  /-- `$D0` BNE `r`, R285. -/
  | bne (off : Byte)
  /-- `$D1` CMP `(d),y`, R201. -/
  | cmpDirIndY (off : Byte)
  /-- `$D2` CMP `(d)`, R201. -/
  | cmpDirInd (off : Byte)
  /-- `$D3` CMP `(d,s),y`, R201. -/
  | cmpStkIndY (off : Byte)
  /-- `$D4` PEI `s`, R260. -/
  | pei (off : Byte)
  /-- `$D5` CMP `d,x`, R201. -/
  | cmpDirX (off : Byte)
  /-- `$D6` DEC `d,x`, R210. -/
  | decDirX (off : Byte)
  /-- `$D7` CMP `[d],y`, R201. -/
  | cmpDirLongY (off : Byte)
  /-- `$D9` CMP `a,y`, R201. -/
  | cmpAbsY (addr : Half)
  /-- `$DC` JML `(a)`, R296. -/
  | jml (addr : Half)
  /-- `$DD` CMP `a,x`, R201. -/
  | cmpAbsX (addr : Half)
  /-- `$DE` DEC `a,x`, R210. -/
  | decAbsX (addr : Half)
  /-- `$DF` CMP `al,x`, R201. -/
  | cmpLongX (addr : BitVec 24)
  /-- `$E0` CPX `#`, R202. -/
  | cpxImm (imm : Imm)
  /-- `$E1` SBC `(d,x)`, R195. -/
  | sbcDirXInd (off : Byte)
  /-- `$E2` SEP `#`, R319. -/
  | sep (mask : Byte)
  /-- `$E3` SBC `d,s`, R195. -/
  | sbcStk (off : Byte)
  /-- `$E4` CPX `d`, R202. -/
  | cpxDir (off : Byte)
  /-- `$E5` SBC `d`, R195. -/
  | sbcDir (off : Byte)
  /-- `$E6` INC `d`, R209. -/
  | incDir (off : Byte)
  /-- `$E7` SBC `[d]`, R195. -/
  | sbcDirLong (off : Byte)
  /-- `$E9` SBC `#`, R195. -/
  | sbcImm (imm : Imm)
  /-- `$EC` CPX `a`, R202. -/
  | cpxAbs (addr : Half)
  /-- `$ED` SBC `a`, R195. -/
  | sbcAbs (addr : Half)
  /-- `$EE` INC `a`, R209. -/
  | incAbs (addr : Half)
  /-- `$EF` SBC `al`, R195. -/
  | sbcLong (addr : BitVec 24)
  /-- `$F0` BEQ `r`, R284. -/
  | beq (off : Byte)
  /-- `$F1` SBC `(d),y`, R195. -/
  | sbcDirIndY (off : Byte)
  /-- `$F2` SBC `(d)`, R195. -/
  | sbcDirInd (off : Byte)
  /-- `$F3` SBC `(d,s),y`, R195. -/
  | sbcStkIndY (off : Byte)
  /-- `$F4` PEA `s`, R259. -/
  | pea (addr : Half)
  /-- `$F5` SBC `d,x`, R195. -/
  | sbcDirX (off : Byte)
  /-- `$F6` INC `d,x`, R209. -/
  | incDirX (off : Byte)
  /-- `$F7` SBC `[d],y`, R195. -/
  | sbcDirLongY (off : Byte)
  /-- `$F9` SBC `a,y`, R195. -/
  | sbcAbsY (addr : Half)
  /-- `$FC` JSR `(a,x)`, R298. -/
  | jsrAbsXInd (addr : Half)
  /-- `$FD` SBC `a,x`, R195. -/
  | sbcAbsX (addr : Half)
  /-- `$FE` INC `a,x`, R209. -/
  | incAbsX (addr : Half)
  /-- `$FF` SBC `al,x`, R195. -/
  | sbcLongX (addr : BitVec 24)
  /-- `$08` PHP `s`, R248. -/
  | php
  /-- `$0A` ASL `A`, R205. -/
  | aslAcc
  /-- `$0B` PHD `s`, R250. -/
  | phd
  /-- `$18` CLC `i`, R311. -/
  | clc
  /-- `$1A` INC `A`, R209. -/
  | incAcc
  /-- `$1B` TCS `i`, R236. -/
  | tcs
  /-- `$28` PLP `s`, R256. -/
  | plp
  /-- `$2A` ROL `A`, R207. -/
  | rolAcc
  /-- `$2B` PLD `s`, R258. -/
  | pld
  /-- `$38` SEC `i`, R312. -/
  | sec
  /-- `$3A` DEC `A`, R210. -/
  | decAcc
  /-- `$3B` TSC `i`, R239. -/
  | tsc
  /-- `$40` RTI `s`, R342. -/
  | rti
  /-- `$48` PHA `s`, R245. -/
  | pha
  /-- `$4A` LSR `A`, R206. -/
  | lsrAcc
  /-- `$4B` PHK `s`, R251. -/
  | phk
  /-- `$58` CLI `i`, R315. -/
  | cli
  /-- `$5A` PHY `s`, R247. -/
  | phy
  /-- `$5B` TCD `i`, R240. -/
  | tcd
  /-- `$60` RTS `s`, R300. -/
  | rts
  /-- `$68` PLA `s`, R253. -/
  | pla
  /-- `$6A` ROR `A`, R208. -/
  | rorAcc
  /-- `$6B` RTL `s`, R301. -/
  | rtl
  /-- `$78` SEI `i`, R316. -/
  | sei
  /-- `$7A` PLY `s`, R255. -/
  | ply
  /-- `$7B` TDC `i`, R242. -/
  | tdc
  /-- `$88` DEY `i`, R214. -/
  | dey
  /-- `$8A` TXA `i`, R233. -/
  | txa
  /-- `$8B` PHB `s`, R249. -/
  | phb
  /-- `$98` TYA `i`, R234. -/
  | tya
  /-- `$9A` TXS `i`, R241. -/
  | txs
  /-- `$9B` TXY `i`, R235. -/
  | txy
  /-- `$A8` TAY `i`, R232. -/
  | tay
  /-- `$AA` TAX `i`, R231. -/
  | tax
  /-- `$AB` PLB `s`, R257. -/
  | plb
  /-- `$B8` CLV `i`, R317. -/
  | clv
  /-- `$BA` TSX `i`, R238. -/
  | tsx
  /-- `$BB` TYX `i`, R237. -/
  | tyx
  /-- `$C8` INY `i`, R212. -/
  | iny
  /-- `$CA` DEX `i`, R213. -/
  | dex
  /-- `$CB` WAI `i`, R343. -/
  | wai
  /-- `$D8` CLD `i`, R313. -/
  | cld
  /-- `$DA` PHX `s`, R246. -/
  | phx
  /-- `$DB` STP `i`, R344. -/
  | stp
  /-- `$E8` INX `i`, R211. -/
  | inx
  /-- `$EA` NOP `i`, R345. -/
  | nop
  /-- `$EB` XBA `i`, R243. -/
  | xba
  /-- `$F8` SED `i`, R314. -/
  | sed
  /-- `$FA` PLX `s`, R254. -/
  | plx
  /-- `$FB` XCE `i`, R321. -/
  | xce
  /-- `XFE_OPCODE` XFE `i`, R322. -/
  | xfe
deriving DecidableEq, Repr

/-- The operand field of an instruction, by its layout after the opcode byte (R101). -/
inductive Operands where
  /-- No operand bytes. -/
  | none
  /-- One byte: an offset, a signature, a REP or SEP mask, or the byte WDM skips. -/
  | byte (b : Byte)
  /-- Two bytes, low first: an address in a bank or a long displacement. -/
  | half (h : Half)
  /-- Three bytes, low first: a 24-bit address. -/
  | long (l : BitVec 24)
  /-- An immediate as wide as the accumulator and memory (`mb` bytes, R103 (a)). -/
  | accImm (v : Imm)
  /-- An immediate as wide as the index registers (`xb` bytes, R103 (a)). -/
  | idxImm (v : Imm)
  /-- The bank bytes of a block move, or none of them (R103 (b)). -/
  | banks (b : BlockBanks)
deriving DecidableEq, Repr

/-- The operand field of each instruction (the `source_fields` and `length_bytes` columns of the table). -/
def Instr.operands : Instr → Operands
  | .brk sig => .byte sig
  | .oraDirXInd off => .byte off
  | .cop sig => .byte sig
  | .oraStk off => .byte off
  | .tsbDir off => .byte off
  | .oraDir off => .byte off
  | .aslDir off => .byte off
  | .oraDirLong off => .byte off
  | .php => .none
  | .oraImm imm => .accImm imm
  | .aslAcc => .none
  | .phd => .none
  | .tsbAbs addr => .half addr
  | .oraAbs addr => .half addr
  | .aslAbs addr => .half addr
  | .oraLong addr => .long addr
  | .bpl off => .byte off
  | .oraDirIndY off => .byte off
  | .oraDirInd off => .byte off
  | .oraStkIndY off => .byte off
  | .trbDir off => .byte off
  | .oraDirX off => .byte off
  | .aslDirX off => .byte off
  | .oraDirLongY off => .byte off
  | .clc => .none
  | .oraAbsY addr => .half addr
  | .incAcc => .none
  | .tcs => .none
  | .trbAbs addr => .half addr
  | .oraAbsX addr => .half addr
  | .aslAbsX addr => .half addr
  | .oraLongX addr => .long addr
  | .jsrAbs addr => .half addr
  | .andDirXInd off => .byte off
  | .jsl addr => .long addr
  | .andStk off => .byte off
  | .bitDir off => .byte off
  | .andDir off => .byte off
  | .rolDir off => .byte off
  | .andDirLong off => .byte off
  | .plp => .none
  | .andImm imm => .accImm imm
  | .rolAcc => .none
  | .pld => .none
  | .bitAbs addr => .half addr
  | .andAbs addr => .half addr
  | .rolAbs addr => .half addr
  | .andLong addr => .long addr
  | .bmi off => .byte off
  | .andDirIndY off => .byte off
  | .andDirInd off => .byte off
  | .andStkIndY off => .byte off
  | .bitDirX off => .byte off
  | .andDirX off => .byte off
  | .rolDirX off => .byte off
  | .andDirLongY off => .byte off
  | .sec => .none
  | .andAbsY addr => .half addr
  | .decAcc => .none
  | .tsc => .none
  | .bitAbsX addr => .half addr
  | .andAbsX addr => .half addr
  | .rolAbsX addr => .half addr
  | .andLongX addr => .long addr
  | .rti => .none
  | .eorDirXInd off => .byte off
  | .wdm skipped => .byte skipped
  | .eorStk off => .byte off
  | .mvp banks => .banks banks
  | .eorDir off => .byte off
  | .lsrDir off => .byte off
  | .eorDirLong off => .byte off
  | .pha => .none
  | .eorImm imm => .accImm imm
  | .lsrAcc => .none
  | .phk => .none
  | .jmpAbs addr => .half addr
  | .eorAbs addr => .half addr
  | .lsrAbs addr => .half addr
  | .eorLong addr => .long addr
  | .bvc off => .byte off
  | .eorDirIndY off => .byte off
  | .eorDirInd off => .byte off
  | .eorStkIndY off => .byte off
  | .mvn banks => .banks banks
  | .eorDirX off => .byte off
  | .lsrDirX off => .byte off
  | .eorDirLongY off => .byte off
  | .cli => .none
  | .eorAbsY addr => .half addr
  | .phy => .none
  | .tcd => .none
  | .jmpLong addr => .long addr
  | .eorAbsX addr => .half addr
  | .lsrAbsX addr => .half addr
  | .eorLongX addr => .long addr
  | .rts => .none
  | .adcDirXInd off => .byte off
  | .per off => .half off
  | .adcStk off => .byte off
  | .stzDir off => .byte off
  | .adcDir off => .byte off
  | .rorDir off => .byte off
  | .adcDirLong off => .byte off
  | .pla => .none
  | .adcImm imm => .accImm imm
  | .rorAcc => .none
  | .rtl => .none
  | .jmpAbsInd addr => .half addr
  | .adcAbs addr => .half addr
  | .rorAbs addr => .half addr
  | .adcLong addr => .long addr
  | .bvs off => .byte off
  | .adcDirIndY off => .byte off
  | .adcDirInd off => .byte off
  | .adcStkIndY off => .byte off
  | .stzDirX off => .byte off
  | .adcDirX off => .byte off
  | .rorDirX off => .byte off
  | .adcDirLongY off => .byte off
  | .sei => .none
  | .adcAbsY addr => .half addr
  | .ply => .none
  | .tdc => .none
  | .jmpAbsXInd addr => .half addr
  | .adcAbsX addr => .half addr
  | .rorAbsX addr => .half addr
  | .adcLongX addr => .long addr
  | .bra off => .byte off
  | .staDirXInd off => .byte off
  | .brl off => .half off
  | .staStk off => .byte off
  | .styDir off => .byte off
  | .staDir off => .byte off
  | .stxDir off => .byte off
  | .staDirLong off => .byte off
  | .dey => .none
  | .bitImm imm => .accImm imm
  | .txa => .none
  | .phb => .none
  | .styAbs addr => .half addr
  | .staAbs addr => .half addr
  | .stxAbs addr => .half addr
  | .staLong addr => .long addr
  | .bcc off => .byte off
  | .staDirIndY off => .byte off
  | .staDirInd off => .byte off
  | .staStkIndY off => .byte off
  | .styDirX off => .byte off
  | .staDirX off => .byte off
  | .stxDirY off => .byte off
  | .staDirLongY off => .byte off
  | .tya => .none
  | .staAbsY addr => .half addr
  | .txs => .none
  | .txy => .none
  | .stzAbs addr => .half addr
  | .staAbsX addr => .half addr
  | .stzAbsX addr => .half addr
  | .staLongX addr => .long addr
  | .ldyImm imm => .idxImm imm
  | .ldaDirXInd off => .byte off
  | .ldxImm imm => .idxImm imm
  | .ldaStk off => .byte off
  | .ldyDir off => .byte off
  | .ldaDir off => .byte off
  | .ldxDir off => .byte off
  | .ldaDirLong off => .byte off
  | .tay => .none
  | .ldaImm imm => .accImm imm
  | .tax => .none
  | .plb => .none
  | .ldyAbs addr => .half addr
  | .ldaAbs addr => .half addr
  | .ldxAbs addr => .half addr
  | .ldaLong addr => .long addr
  | .bcs off => .byte off
  | .ldaDirIndY off => .byte off
  | .ldaDirInd off => .byte off
  | .ldaStkIndY off => .byte off
  | .ldyDirX off => .byte off
  | .ldaDirX off => .byte off
  | .ldxDirY off => .byte off
  | .ldaDirLongY off => .byte off
  | .clv => .none
  | .ldaAbsY addr => .half addr
  | .tsx => .none
  | .tyx => .none
  | .ldyAbsX addr => .half addr
  | .ldaAbsX addr => .half addr
  | .ldxAbsY addr => .half addr
  | .ldaLongX addr => .long addr
  | .cpyImm imm => .idxImm imm
  | .cmpDirXInd off => .byte off
  | .rep mask => .byte mask
  | .cmpStk off => .byte off
  | .cpyDir off => .byte off
  | .cmpDir off => .byte off
  | .decDir off => .byte off
  | .cmpDirLong off => .byte off
  | .iny => .none
  | .cmpImm imm => .accImm imm
  | .dex => .none
  | .wai => .none
  | .cpyAbs addr => .half addr
  | .cmpAbs addr => .half addr
  | .decAbs addr => .half addr
  | .cmpLong addr => .long addr
  | .bne off => .byte off
  | .cmpDirIndY off => .byte off
  | .cmpDirInd off => .byte off
  | .cmpStkIndY off => .byte off
  | .pei off => .byte off
  | .cmpDirX off => .byte off
  | .decDirX off => .byte off
  | .cmpDirLongY off => .byte off
  | .cld => .none
  | .cmpAbsY addr => .half addr
  | .phx => .none
  | .stp => .none
  | .jml addr => .half addr
  | .cmpAbsX addr => .half addr
  | .decAbsX addr => .half addr
  | .cmpLongX addr => .long addr
  | .cpxImm imm => .idxImm imm
  | .sbcDirXInd off => .byte off
  | .sep mask => .byte mask
  | .sbcStk off => .byte off
  | .cpxDir off => .byte off
  | .sbcDir off => .byte off
  | .incDir off => .byte off
  | .sbcDirLong off => .byte off
  | .inx => .none
  | .sbcImm imm => .accImm imm
  | .nop => .none
  | .xba => .none
  | .cpxAbs addr => .half addr
  | .sbcAbs addr => .half addr
  | .incAbs addr => .half addr
  | .sbcLong addr => .long addr
  | .beq off => .byte off
  | .sbcDirIndY off => .byte off
  | .sbcDirInd off => .byte off
  | .sbcStkIndY off => .byte off
  | .pea addr => .half addr
  | .sbcDirX off => .byte off
  | .incDirX off => .byte off
  | .sbcDirLongY off => .byte off
  | .sed => .none
  | .sbcAbsY addr => .half addr
  | .plx => .none
  | .xce => .none
  | .jsrAbsXInd addr => .half addr
  | .sbcAbsX addr => .half addr
  | .incAbsX addr => .half addr
  | .sbcLongX addr => .long addr
  | .xfe => .none

/-- The number of operand bytes. -/
def Operands.size : Operands → Nat
  | .none => 0
  | .byte _ => 1
  | .half _ => 2
  | .long _ => 3
  | .accImm v => v.width.bytes
  | .idxImm v => v.width.bytes
  | .banks (.banks _ _) => 2
  | .banks .native => 0

/-- The length of an instruction in bytes (`len` of R16, R103). -/
def Instr.len (i : Instr) : Nat := 1 + i.operands.size

/-- What decoding depends on besides the bytes (R104, R107): the accumulator and index widths in force, whether the
mode is native, and the opcode byte of XFE, if it has one. -/
structure DecodeCtx where
  mw : Width
  xw : Width
  native : Bool
  xfe : Option Byte
deriving DecidableEq, Repr

end Sys2Proof
end

