-- ==== Sys2Proof/WellFormed.lean ====
section
/-! DEFINITION. When an instruction can stand in the instruction stream, in a given decoding context: an immediate is
as wide as the register it meets (R103 (a)), a block move has its bank bytes exactly outside native mode (R103 (b)),
and XFE needs an opcode (R107). Nothing else is restricted: no field has a reserved value (R105). -/

namespace Sys2Proof

/-- The operand field has the size the context gives it (R103). -/
def Operands.wf (c : DecodeCtx) : Operands → Bool
  | .none => true
  | .byte _ => true
  | .half _ => true
  | .long _ => true
  | .accImm v => v.width == c.mw
  | .idxImm v => v.width == c.xw
  | .banks (.banks _ _) => !c.native
  | .banks .native => c.native

/-- XFE is an instruction only where the parameter `XFE_OPCODE` gives it a byte (R107). -/
def Instr.xfeOk (c : DecodeCtx) (i : Instr) : Bool := i != .xfe || c.xfe.isSome

/-- The instruction is well-formed in the context. -/
def Instr.wf (c : DecodeCtx) (i : Instr) : Bool := i.operands.wf c && i.xfeOk c

end Sys2Proof
end

