-- ==== Sys2Proof/Decode.lean ====
section
/-! DEFINITION. The decoder (R100 to R109) and, after it, the encoder. The decoder is total: every opcode byte is an
instruction in every mode (R109), so the only byte strings it rejects are those that end too early, and it rejects
them by name. -/

namespace Sys2Proof

/-- One cell of the opcode matrix: the instruction, waiting for its operand field (R101). -/
inductive OpCell where
  | none (i : Instr)
  | byte (f : Byte → Instr)
  | half (f : Half → Instr)
  | long (f : BitVec 24 → Instr)
  | accImm (f : Imm → Instr)
  | idxImm (f : Imm → Instr)
  | banks (f : BlockBanks → Instr)

/-- Row 0x of the opcode matrix (R102), columns 0 to F. -/
def opRow0 : List OpCell :=
  [ .byte .brk, .byte .oraDirXInd, .byte .cop, .byte .oraStk,
    .byte .tsbDir, .byte .oraDir, .byte .aslDir, .byte .oraDirLong,
    .none .php, .accImm .oraImm, .none .aslAcc, .none .phd,
    .half .tsbAbs, .half .oraAbs, .half .aslAbs, .long .oraLong ]

/-- Row 1x of the opcode matrix (R102), columns 0 to F. -/
def opRow1 : List OpCell :=
  [ .byte .bpl, .byte .oraDirIndY, .byte .oraDirInd, .byte .oraStkIndY,
    .byte .trbDir, .byte .oraDirX, .byte .aslDirX, .byte .oraDirLongY,
    .none .clc, .half .oraAbsY, .none .incAcc, .none .tcs,
    .half .trbAbs, .half .oraAbsX, .half .aslAbsX, .long .oraLongX ]

/-- Row 2x of the opcode matrix (R102), columns 0 to F. -/
def opRow2 : List OpCell :=
  [ .half .jsrAbs, .byte .andDirXInd, .long .jsl, .byte .andStk,
    .byte .bitDir, .byte .andDir, .byte .rolDir, .byte .andDirLong,
    .none .plp, .accImm .andImm, .none .rolAcc, .none .pld,
    .half .bitAbs, .half .andAbs, .half .rolAbs, .long .andLong ]

/-- Row 3x of the opcode matrix (R102), columns 0 to F. -/
def opRow3 : List OpCell :=
  [ .byte .bmi, .byte .andDirIndY, .byte .andDirInd, .byte .andStkIndY,
    .byte .bitDirX, .byte .andDirX, .byte .rolDirX, .byte .andDirLongY,
    .none .sec, .half .andAbsY, .none .decAcc, .none .tsc,
    .half .bitAbsX, .half .andAbsX, .half .rolAbsX, .long .andLongX ]

/-- Row 4x of the opcode matrix (R102), columns 0 to F. -/
def opRow4 : List OpCell :=
  [ .none .rti, .byte .eorDirXInd, .byte .wdm, .byte .eorStk,
    .banks .mvp, .byte .eorDir, .byte .lsrDir, .byte .eorDirLong,
    .none .pha, .accImm .eorImm, .none .lsrAcc, .none .phk,
    .half .jmpAbs, .half .eorAbs, .half .lsrAbs, .long .eorLong ]

/-- Row 5x of the opcode matrix (R102), columns 0 to F. -/
def opRow5 : List OpCell :=
  [ .byte .bvc, .byte .eorDirIndY, .byte .eorDirInd, .byte .eorStkIndY,
    .banks .mvn, .byte .eorDirX, .byte .lsrDirX, .byte .eorDirLongY,
    .none .cli, .half .eorAbsY, .none .phy, .none .tcd,
    .long .jmpLong, .half .eorAbsX, .half .lsrAbsX, .long .eorLongX ]

/-- Row 6x of the opcode matrix (R102), columns 0 to F. -/
def opRow6 : List OpCell :=
  [ .none .rts, .byte .adcDirXInd, .half .per, .byte .adcStk,
    .byte .stzDir, .byte .adcDir, .byte .rorDir, .byte .adcDirLong,
    .none .pla, .accImm .adcImm, .none .rorAcc, .none .rtl,
    .half .jmpAbsInd, .half .adcAbs, .half .rorAbs, .long .adcLong ]

/-- Row 7x of the opcode matrix (R102), columns 0 to F. -/
def opRow7 : List OpCell :=
  [ .byte .bvs, .byte .adcDirIndY, .byte .adcDirInd, .byte .adcStkIndY,
    .byte .stzDirX, .byte .adcDirX, .byte .rorDirX, .byte .adcDirLongY,
    .none .sei, .half .adcAbsY, .none .ply, .none .tdc,
    .half .jmpAbsXInd, .half .adcAbsX, .half .rorAbsX, .long .adcLongX ]

/-- Row 8x of the opcode matrix (R102), columns 0 to F. -/
def opRow8 : List OpCell :=
  [ .byte .bra, .byte .staDirXInd, .half .brl, .byte .staStk,
    .byte .styDir, .byte .staDir, .byte .stxDir, .byte .staDirLong,
    .none .dey, .accImm .bitImm, .none .txa, .none .phb,
    .half .styAbs, .half .staAbs, .half .stxAbs, .long .staLong ]

/-- Row 9x of the opcode matrix (R102), columns 0 to F. -/
def opRow9 : List OpCell :=
  [ .byte .bcc, .byte .staDirIndY, .byte .staDirInd, .byte .staStkIndY,
    .byte .styDirX, .byte .staDirX, .byte .stxDirY, .byte .staDirLongY,
    .none .tya, .half .staAbsY, .none .txs, .none .txy,
    .half .stzAbs, .half .staAbsX, .half .stzAbsX, .long .staLongX ]

/-- Row Ax of the opcode matrix (R102), columns 0 to F. -/
def opRowA : List OpCell :=
  [ .idxImm .ldyImm, .byte .ldaDirXInd, .idxImm .ldxImm, .byte .ldaStk,
    .byte .ldyDir, .byte .ldaDir, .byte .ldxDir, .byte .ldaDirLong,
    .none .tay, .accImm .ldaImm, .none .tax, .none .plb,
    .half .ldyAbs, .half .ldaAbs, .half .ldxAbs, .long .ldaLong ]

/-- Row Bx of the opcode matrix (R102), columns 0 to F. -/
def opRowB : List OpCell :=
  [ .byte .bcs, .byte .ldaDirIndY, .byte .ldaDirInd, .byte .ldaStkIndY,
    .byte .ldyDirX, .byte .ldaDirX, .byte .ldxDirY, .byte .ldaDirLongY,
    .none .clv, .half .ldaAbsY, .none .tsx, .none .tyx,
    .half .ldyAbsX, .half .ldaAbsX, .half .ldxAbsY, .long .ldaLongX ]

/-- Row Cx of the opcode matrix (R102), columns 0 to F. -/
def opRowC : List OpCell :=
  [ .idxImm .cpyImm, .byte .cmpDirXInd, .byte .rep, .byte .cmpStk,
    .byte .cpyDir, .byte .cmpDir, .byte .decDir, .byte .cmpDirLong,
    .none .iny, .accImm .cmpImm, .none .dex, .none .wai,
    .half .cpyAbs, .half .cmpAbs, .half .decAbs, .long .cmpLong ]

/-- Row Dx of the opcode matrix (R102), columns 0 to F. -/
def opRowD : List OpCell :=
  [ .byte .bne, .byte .cmpDirIndY, .byte .cmpDirInd, .byte .cmpStkIndY,
    .byte .pei, .byte .cmpDirX, .byte .decDirX, .byte .cmpDirLongY,
    .none .cld, .half .cmpAbsY, .none .phx, .none .stp,
    .half .jml, .half .cmpAbsX, .half .decAbsX, .long .cmpLongX ]

/-- Row Ex of the opcode matrix (R102), columns 0 to F. -/
def opRowE : List OpCell :=
  [ .idxImm .cpxImm, .byte .sbcDirXInd, .byte .sep, .byte .sbcStk,
    .byte .cpxDir, .byte .sbcDir, .byte .incDir, .byte .sbcDirLong,
    .none .inx, .accImm .sbcImm, .none .nop, .none .xba,
    .half .cpxAbs, .half .sbcAbs, .half .incAbs, .long .sbcLong ]

/-- Row Fx of the opcode matrix (R102), columns 0 to F. -/
def opRowF : List OpCell :=
  [ .byte .beq, .byte .sbcDirIndY, .byte .sbcDirInd, .byte .sbcStkIndY,
    .half .pea, .byte .sbcDirX, .byte .incDirX, .byte .sbcDirLongY,
    .none .sed, .half .sbcAbsY, .none .plx, .none .xce,
    .half .jsrAbsXInd, .half .sbcAbsX, .half .incAbsX, .long .sbcLongX ]

/-- The opcode matrix (R102): the cell of opcode byte `b` is entry `b`. -/
def opMatrix : List OpCell :=
  opRow0 ++ opRow1 ++ opRow2 ++ opRow3 ++ opRow4 ++ opRow5 ++ opRow6 ++ opRow7 ++
  opRow8 ++ opRow9 ++ opRowA ++ opRowB ++ opRowC ++ opRowD ++ opRowE ++ opRowF

/-- The cell of an opcode byte: XFE where `XFE_OPCODE` is that byte (R107), else the matrix entry. -/
def opCell (c : DecodeCtx) (op : Byte) : OpCell :=
  if c.xfe = some op then .none .xfe else opMatrix.getD op.toNat (.none .nop)

/-- The number of operand bytes of a cell in the current mode (R103). -/
def OpCell.size (c : DecodeCtx) : OpCell → Nat
  | .none _ => 0
  | .byte _ => 1
  | .half _ => 2
  | .long _ => 3
  | .accImm _ => c.mw.bytes
  | .idxImm _ => c.xw.bytes
  | .banks _ => if c.native then 0 else 2

/-- Two bytes, low byte first (R74, R75). -/
def half2 (lo hi : Byte) : Half := lo.setWidth 16 ||| hi.setWidth 16 <<< 8

/-- Three bytes, low byte first (R74, R75). -/
def long3 (lo hi bank : Byte) : BitVec 24 :=
  lo.setWidth 24 ||| hi.setWidth 24 <<< 8 ||| bank.setWidth 24 <<< 16

/-- Four bytes, low byte first (R74, R75). -/
def word4 (b0 b1 b2 b3 : Byte) : Word :=
  b0.setWidth 32 ||| b1.setWidth 32 <<< 8 ||| b2.setWidth 32 <<< 16 ||| b3.setWidth 32 <<< 24

/-- An immediate of width `w` read from the bytes after the opcode (R133). -/
def readImm (w : Width) (b1 b2 b3 b4 : Byte) : Imm :=
  match w with
  | .w8 => .b1 b1
  | .w16 => .b2 (half2 b1 b2)
  | .w32 => .b4 (word4 b1 b2 b3 b4)

/-- The instruction of a cell, given the four bytes after the opcode, of which it uses as many as its length says. -/
def OpCell.build (c : DecodeCtx) (b1 b2 b3 b4 : Byte) : OpCell → Instr
  | .none i => i
  | .byte f => f b1
  | .half f => f (half2 b1 b2)
  | .long f => f (long3 b1 b2 b3)
  | .accImm f => f (readImm c.mw b1 b2 b3 b4)
  | .idxImm f => f (readImm c.xw b1 b2 b3 b4)
  | .banks f => f (if c.native then .native else .banks b1 b2)

/-- The decoder on the five bytes at the program counter (the longest instruction has five, R100). -/
def decodeBytes (c : DecodeCtx) (b0 b1 b2 b3 b4 : Byte) : Instr := (opCell c b0).build c b1 b2 b3 b4

/-- Why a byte string is no instruction. No opcode is illegal (R109): it can only end too early. -/
inductive DecodeError where
  /-- There is no opcode byte. -/
  | noOpcode
  /-- The instruction has more operand bytes than the string (`needed` in all). -/
  | missingOperand (needed : Nat)
deriving DecidableEq, Repr

/-- The decoder on any byte string: the instruction and the bytes after it, or the reason there is none. -/
def decode (c : DecodeCtx) : List Byte → Except DecodeError (Instr × List Byte)
  | [] => .error .noOpcode
  | b0 :: rest =>
    let cell := opCell c b0
    if rest.length < cell.size c then .error (.missingOperand (cell.size c))
    else .ok (cell.build c (rest.getD 0 0) (rest.getD 1 0) (rest.getD 2 0) (rest.getD 3 0), rest.drop (cell.size c))

/-- The decoding context right after reset: `emu8`, so 8-bit registers (R49), and no XFE opcode (R9). -/
def DecodeCtx.atReset : DecodeCtx where
  mw := .w8
  xw := .w8
  native := false
  xfe := none

/-- Byte `k` of a table word: bits `8k+7 .. 8k`, the bits from `nbits` up being 0. -/
def tableByte (nbits w k : Nat) : Byte := BitVec.ofNat 8 ((w % 2 ^ nbits) / 2 ^ (8 * k))

/-- The instruction the decoder reads from the bytes of a table word, low byte first, in the mode right after reset. -/
def decodeTableWord (nbits w : Nat) : Option Instr :=
  match decode .atReset [tableByte nbits w 0, tableByte nbits w 1, tableByte nbits w 2, tableByte nbits w 3,
      tableByte nbits w 4] with
  | .ok (i, _) => some i
  | .error _ => none

/-- The opcode byte of each instruction (the `match` column of the table); that of XFE is a parameter (R107) and is
read from the context. -/
def Instr.opcode (c : DecodeCtx) : Instr → Byte
  | .brk _ => 0x00
  | .oraDirXInd _ => 0x01
  | .cop _ => 0x02
  | .oraStk _ => 0x03
  | .tsbDir _ => 0x04
  | .oraDir _ => 0x05
  | .aslDir _ => 0x06
  | .oraDirLong _ => 0x07
  | .php => 0x08
  | .oraImm _ => 0x09
  | .aslAcc => 0x0A
  | .phd => 0x0B
  | .tsbAbs _ => 0x0C
  | .oraAbs _ => 0x0D
  | .aslAbs _ => 0x0E
  | .oraLong _ => 0x0F
  | .bpl _ => 0x10
  | .oraDirIndY _ => 0x11
  | .oraDirInd _ => 0x12
  | .oraStkIndY _ => 0x13
  | .trbDir _ => 0x14
  | .oraDirX _ => 0x15
  | .aslDirX _ => 0x16
  | .oraDirLongY _ => 0x17
  | .clc => 0x18
  | .oraAbsY _ => 0x19
  | .incAcc => 0x1A
  | .tcs => 0x1B
  | .trbAbs _ => 0x1C
  | .oraAbsX _ => 0x1D
  | .aslAbsX _ => 0x1E
  | .oraLongX _ => 0x1F
  | .jsrAbs _ => 0x20
  | .andDirXInd _ => 0x21
  | .jsl _ => 0x22
  | .andStk _ => 0x23
  | .bitDir _ => 0x24
  | .andDir _ => 0x25
  | .rolDir _ => 0x26
  | .andDirLong _ => 0x27
  | .plp => 0x28
  | .andImm _ => 0x29
  | .rolAcc => 0x2A
  | .pld => 0x2B
  | .bitAbs _ => 0x2C
  | .andAbs _ => 0x2D
  | .rolAbs _ => 0x2E
  | .andLong _ => 0x2F
  | .bmi _ => 0x30
  | .andDirIndY _ => 0x31
  | .andDirInd _ => 0x32
  | .andStkIndY _ => 0x33
  | .bitDirX _ => 0x34
  | .andDirX _ => 0x35
  | .rolDirX _ => 0x36
  | .andDirLongY _ => 0x37
  | .sec => 0x38
  | .andAbsY _ => 0x39
  | .decAcc => 0x3A
  | .tsc => 0x3B
  | .bitAbsX _ => 0x3C
  | .andAbsX _ => 0x3D
  | .rolAbsX _ => 0x3E
  | .andLongX _ => 0x3F
  | .rti => 0x40
  | .eorDirXInd _ => 0x41
  | .wdm _ => 0x42
  | .eorStk _ => 0x43
  | .mvp _ => 0x44
  | .eorDir _ => 0x45
  | .lsrDir _ => 0x46
  | .eorDirLong _ => 0x47
  | .pha => 0x48
  | .eorImm _ => 0x49
  | .lsrAcc => 0x4A
  | .phk => 0x4B
  | .jmpAbs _ => 0x4C
  | .eorAbs _ => 0x4D
  | .lsrAbs _ => 0x4E
  | .eorLong _ => 0x4F
  | .bvc _ => 0x50
  | .eorDirIndY _ => 0x51
  | .eorDirInd _ => 0x52
  | .eorStkIndY _ => 0x53
  | .mvn _ => 0x54
  | .eorDirX _ => 0x55
  | .lsrDirX _ => 0x56
  | .eorDirLongY _ => 0x57
  | .cli => 0x58
  | .eorAbsY _ => 0x59
  | .phy => 0x5A
  | .tcd => 0x5B
  | .jmpLong _ => 0x5C
  | .eorAbsX _ => 0x5D
  | .lsrAbsX _ => 0x5E
  | .eorLongX _ => 0x5F
  | .rts => 0x60
  | .adcDirXInd _ => 0x61
  | .per _ => 0x62
  | .adcStk _ => 0x63
  | .stzDir _ => 0x64
  | .adcDir _ => 0x65
  | .rorDir _ => 0x66
  | .adcDirLong _ => 0x67
  | .pla => 0x68
  | .adcImm _ => 0x69
  | .rorAcc => 0x6A
  | .rtl => 0x6B
  | .jmpAbsInd _ => 0x6C
  | .adcAbs _ => 0x6D
  | .rorAbs _ => 0x6E
  | .adcLong _ => 0x6F
  | .bvs _ => 0x70
  | .adcDirIndY _ => 0x71
  | .adcDirInd _ => 0x72
  | .adcStkIndY _ => 0x73
  | .stzDirX _ => 0x74
  | .adcDirX _ => 0x75
  | .rorDirX _ => 0x76
  | .adcDirLongY _ => 0x77
  | .sei => 0x78
  | .adcAbsY _ => 0x79
  | .ply => 0x7A
  | .tdc => 0x7B
  | .jmpAbsXInd _ => 0x7C
  | .adcAbsX _ => 0x7D
  | .rorAbsX _ => 0x7E
  | .adcLongX _ => 0x7F
  | .bra _ => 0x80
  | .staDirXInd _ => 0x81
  | .brl _ => 0x82
  | .staStk _ => 0x83
  | .styDir _ => 0x84
  | .staDir _ => 0x85
  | .stxDir _ => 0x86
  | .staDirLong _ => 0x87
  | .dey => 0x88
  | .bitImm _ => 0x89
  | .txa => 0x8A
  | .phb => 0x8B
  | .styAbs _ => 0x8C
  | .staAbs _ => 0x8D
  | .stxAbs _ => 0x8E
  | .staLong _ => 0x8F
  | .bcc _ => 0x90
  | .staDirIndY _ => 0x91
  | .staDirInd _ => 0x92
  | .staStkIndY _ => 0x93
  | .styDirX _ => 0x94
  | .staDirX _ => 0x95
  | .stxDirY _ => 0x96
  | .staDirLongY _ => 0x97
  | .tya => 0x98
  | .staAbsY _ => 0x99
  | .txs => 0x9A
  | .txy => 0x9B
  | .stzAbs _ => 0x9C
  | .staAbsX _ => 0x9D
  | .stzAbsX _ => 0x9E
  | .staLongX _ => 0x9F
  | .ldyImm _ => 0xA0
  | .ldaDirXInd _ => 0xA1
  | .ldxImm _ => 0xA2
  | .ldaStk _ => 0xA3
  | .ldyDir _ => 0xA4
  | .ldaDir _ => 0xA5
  | .ldxDir _ => 0xA6
  | .ldaDirLong _ => 0xA7
  | .tay => 0xA8
  | .ldaImm _ => 0xA9
  | .tax => 0xAA
  | .plb => 0xAB
  | .ldyAbs _ => 0xAC
  | .ldaAbs _ => 0xAD
  | .ldxAbs _ => 0xAE
  | .ldaLong _ => 0xAF
  | .bcs _ => 0xB0
  | .ldaDirIndY _ => 0xB1
  | .ldaDirInd _ => 0xB2
  | .ldaStkIndY _ => 0xB3
  | .ldyDirX _ => 0xB4
  | .ldaDirX _ => 0xB5
  | .ldxDirY _ => 0xB6
  | .ldaDirLongY _ => 0xB7
  | .clv => 0xB8
  | .ldaAbsY _ => 0xB9
  | .tsx => 0xBA
  | .tyx => 0xBB
  | .ldyAbsX _ => 0xBC
  | .ldaAbsX _ => 0xBD
  | .ldxAbsY _ => 0xBE
  | .ldaLongX _ => 0xBF
  | .cpyImm _ => 0xC0
  | .cmpDirXInd _ => 0xC1
  | .rep _ => 0xC2
  | .cmpStk _ => 0xC3
  | .cpyDir _ => 0xC4
  | .cmpDir _ => 0xC5
  | .decDir _ => 0xC6
  | .cmpDirLong _ => 0xC7
  | .iny => 0xC8
  | .cmpImm _ => 0xC9
  | .dex => 0xCA
  | .wai => 0xCB
  | .cpyAbs _ => 0xCC
  | .cmpAbs _ => 0xCD
  | .decAbs _ => 0xCE
  | .cmpLong _ => 0xCF
  | .bne _ => 0xD0
  | .cmpDirIndY _ => 0xD1
  | .cmpDirInd _ => 0xD2
  | .cmpStkIndY _ => 0xD3
  | .pei _ => 0xD4
  | .cmpDirX _ => 0xD5
  | .decDirX _ => 0xD6
  | .cmpDirLongY _ => 0xD7
  | .cld => 0xD8
  | .cmpAbsY _ => 0xD9
  | .phx => 0xDA
  | .stp => 0xDB
  | .jml _ => 0xDC
  | .cmpAbsX _ => 0xDD
  | .decAbsX _ => 0xDE
  | .cmpLongX _ => 0xDF
  | .cpxImm _ => 0xE0
  | .sbcDirXInd _ => 0xE1
  | .sep _ => 0xE2
  | .sbcStk _ => 0xE3
  | .cpxDir _ => 0xE4
  | .sbcDir _ => 0xE5
  | .incDir _ => 0xE6
  | .sbcDirLong _ => 0xE7
  | .inx => 0xE8
  | .sbcImm _ => 0xE9
  | .nop => 0xEA
  | .xba => 0xEB
  | .cpxAbs _ => 0xEC
  | .sbcAbs _ => 0xED
  | .incAbs _ => 0xEE
  | .sbcLong _ => 0xEF
  | .beq _ => 0xF0
  | .sbcDirIndY _ => 0xF1
  | .sbcDirInd _ => 0xF2
  | .sbcStkIndY _ => 0xF3
  | .pea _ => 0xF4
  | .sbcDirX _ => 0xF5
  | .incDirX _ => 0xF6
  | .sbcDirLongY _ => 0xF7
  | .sed => 0xF8
  | .sbcAbsY _ => 0xF9
  | .plx => 0xFA
  | .xce => 0xFB
  | .jsrAbsXInd _ => 0xFC
  | .sbcAbsX _ => 0xFD
  | .incAbsX _ => 0xFE
  | .sbcLongX _ => 0xFF
  | .xfe => c.xfe.getD 0

/-- The bytes of a 16-bit field, low byte first. -/
def halfBytes (h : Half) : List Byte := [h.extractLsb' 0 8, h.extractLsb' 8 8]

/-- The bytes of a 24-bit field, low byte first. -/
def longBytes (l : BitVec 24) : List Byte := [l.extractLsb' 0 8, l.extractLsb' 8 8, l.extractLsb' 16 8]

/-- The bytes of an immediate, low byte first (R133). -/
def Imm.encode : Imm → List Byte
  | .b1 v => [v]
  | .b2 v => halfBytes v
  | .b4 v => [v.extractLsb' 0 8, v.extractLsb' 8 8, v.extractLsb' 16 8, v.extractLsb' 24 8]

/-- The bytes of an operand field (R101, R105). -/
def Operands.encode : Operands → List Byte
  | .none => []
  | .byte b => [b]
  | .half h => halfBytes h
  | .long l => longBytes l
  | .accImm v => v.encode
  | .idxImm v => v.encode
  | .banks (.banks dst src) => [dst, src]
  | .banks .native => []

/-- The bytes of an instruction: its opcode, then its operand field (R100, R101). -/
def encode (c : DecodeCtx) (i : Instr) : List Byte := i.opcode c :: i.operands.encode

/-- Whether XFE has taken the instruction's opcode byte, so that no bytes decode to the instruction (R107). -/
def Instr.shadowed (c : DecodeCtx) (i : Instr) : Bool := i != .xfe && c.xfe == some (i.opcode c)

end Sys2Proof
end

