-- ==== Sys2Proof/Machine/Bits.lean ====
section
/-! DEFINITION. Bit fields and widths: the slices, extensions and truncations of R12 and R14. A value of an operating
width is held as a 32-bit word whose bits above the width are 0. -/

namespace Sys2Proof

/-- `trunc_w(v)`, zero-extended again to 32 bits (R12): the low bits of `v` at width `w`. -/
def Width.trunc (w : Width) (v : Word) : Word :=
  match w with
  | .w8 => v &&& 0xFF
  | .w16 => v &&& 0xFFFF
  | .w32 => v

/-- `old` with its low bits at width `w` replaced by those of `new` (R13: a write to a slice keeps the other bits). -/
def Width.merge (w : Width) (old new : Word) : Word :=
  match w with
  | .w8 => old &&& 0xFFFFFF00 ||| new &&& 0xFF
  | .w16 => old &&& 0xFFFF0000 ||| new &&& 0xFFFF
  | .w32 => new

/-- `msb(v, w)` of R14: the top bit of `v` at width `w`. -/
def Width.msb (w : Width) (v : Word) : Bool := v.getLsbD (w.bits - 1)

/-- The bit below the top one at width `w`: what BIT copies to V (R200). -/
def Width.msb2 (w : Width) (v : Word) : Bool := v.getLsbD (w.bits - 2)

/-- `not_w(v)` of R195: the complement at width `w`. -/
def Width.not (w : Width) (v : Word) : Word := w.trunc (~~~v)

namespace Machine

/-- Bits `8i+7 .. 8i` of a word. -/
def byteOf (v : Word) (i : Nat) : Byte := (v >>> (8 * i)).setWidth 8

/-- `zext_32` of a byte. -/
def zextByte (b : Byte) : Word := b.setWidth 32

/-- `zext_32` of a 16-bit quantity. -/
def zextHalf (h : Half) : Word := h.setWidth 32

/-- `sext_16` of a byte (R105: the displacement of a short branch). -/
def sextByte (b : Byte) : Half := b.signExtend 16

/-- The low 16 bits of a word. -/
def lowHalf (v : Word) : Half := v.setWidth 16

/-- The low byte of a word. -/
def lowByte (v : Word) : Byte := v.setWidth 8

/-- The low byte of a 16-bit quantity (DL, SL, PCL). -/
def halfLo (h : Half) : Byte := h.setWidth 8

/-- The high byte of a 16-bit quantity (DH, SH, PCH). -/
def halfHi (h : Half) : Byte := (h >>> 8).setWidth 8

/-- `{hi, lo}` of two bytes. -/
def joinBytes (hi lo : Byte) : Half := hi.setWidth 16 <<< 8 ||| lo.setWidth 16

/-- `{$00, bank, offset}`: a bank and an offset in it, as a 32-bit address. -/
def bankAddr (bank : Byte) (off : Half) : Word := bank.setWidth 32 <<< 16 ||| off.setWidth 32

/-- The low 24 bits of an address, zero-extended (R132). -/
def low24 (a : Word) : Word := a &&& 0x00FFFFFF

/-- `{$00, long}`: a 24-bit address as a 32-bit one (R135). -/
def zextLong (l : BitVec 24) : Word := l.setWidth 32

/-- Bits 15:0 of a 24-bit address. -/
def longOff (l : BitVec 24) : Half := l.setWidth 16

/-- Bits 23:16 of a 24-bit address: the bank. -/
def longBank (l : BitVec 24) : Byte := (l >>> 16).setWidth 8

end Machine

end Sys2Proof
end

