-- ==== Sys2Proof/Machine/Memory.lean ====
section
/-! DEFINITION. Memory (R70): the bytes that differ from what an unlisted address reads as, by strictly rising
physical address. Every physical address exists and reads and writes without side effects (R86, R94, U17). -/

namespace Sys2Proof.Machine

/-- What a byte that nothing has written reads as. The spec gives memory no contents: DESIGN CHOICE, log 6. -/
def Mem.unlisted : Byte := 0

/-- The byte at physical address `a`. -/
def Mem.read : List Host.Cell → Nat → Byte
  | [], _ => Mem.unlisted
  | (k, b) :: rest, a => if a = k then b else Mem.read rest a

/-- List a cell in front of the first cell with a higher address. -/
def Mem.insert (a : Nat) (v : Byte) : List Host.Cell → List Host.Cell
  | [] => [(a, v)]
  | (k, b) :: rest => if a < k then (a, v) :: (k, b) :: rest else (k, b) :: Mem.insert a v rest

/-- Unlist an address. -/
def Mem.erase (a : Nat) : List Host.Cell → List Host.Cell
  | [] => []
  | (k, b) :: rest => if a = k then Mem.erase a rest else (k, b) :: Mem.erase a rest

/-- Write one byte, keeping the canonical form. -/
def Mem.write (m : List Host.Cell) (a : Nat) (v : Byte) : List Host.Cell :=
  if v = Mem.unlisted then Mem.erase a m else Mem.insert a v (Mem.erase a m)

/-- The canonical form: addresses strictly rising, and no cell that says what an unlisted address reads as. -/
abbrev Mem.wf (m : List Host.Cell) : Prop :=
  m.Pairwise (fun p q => p.1 < q.1) ∧ ∀ p ∈ m, p.2 ≠ Mem.unlisted

/-- Every listed address is a physical address of `bits` bits (R70). -/
abbrev Mem.inSpace (bits : Nat) (m : List Host.Cell) : Prop := ∀ p ∈ m, p.1 < 2 ^ bits

end Sys2Proof.Machine
end

