-- ==== Sys2Proof/Machine/State.lean ====
section
/-! DEFINITION. The state of the machine (R20) as plain data, the reasons a step can stop, and the state right after
reset (R49). The fields marked MODEL are the model's own and not registers of the machine. -/

namespace Sys2Proof.Machine

/-- The faults of the machine: none. No situation is a fault: there are no illegal opcodes, no access, alignment or
privilege faults (R79, R94, R109, R361, R386). Nothing raises one, which is safe. -/
inductive Fault where
deriving DecidableEq, Repr

/-- Why a step has no meaning in the model. -/
inductive Refusal where
  /-- Raised by an arm of `exec` for an instruction without a meaning yet; safe. No arm raises it. -/
  | notModelled (mnemonic : String)
  /-- Raised by the step when, under the precise abort model, ABORT- is asserted during an interrupt sequence: outside
  the spec's model (R380, U11), hence a stop; safe. No instruction raises it. -/
  | abortedSequence
deriving DecidableEq, Repr

/-- The status register P: eight one-bit flags (R13, R32). `x` is the index select flag Xf and `d` the decimal flag
Df; as a byte, P is N V M Xf Df I Z C from bit 7 down. -/
structure Status where
  /-- Negative. -/
  n : Bool
  /-- Overflow. -/
  v : Bool
  /-- Memory and accumulator select: 1 is 8 bits. -/
  m : Bool
  /-- Index select Xf: 1 is 8 bits. -/
  x : Bool
  /-- Decimal mode Df. -/
  d : Bool
  /-- IRQ disable. -/
  i : Bool
  /-- Zero. -/
  z : Bool
  /-- Carry. -/
  c : Bool
deriving DecidableEq, Repr

/-- The run state (R47): `waiting` after WAI, `stopped` after STP. -/
inductive RunState where
  | running
  | waiting
  | stopped
deriving DecidableEq, Repr

/-- The RES- input at a boundary (R360, R410): inactive, seen at the boundary, or arriving in the middle of the step
that would start there (R414). -/
inductive ResInput where
  | inactive
  | atBoundary
  | midStep
deriving DecidableEq, Repr

/-- The inputs the environment presents at one boundary (R360). -/
structure Inputs where
  /-- RES-. -/
  res : ResInput
  /-- IRQ- is low now. -/
  irq : Bool
  /-- NMI- went from high to low since the last boundary. -/
  nmiEdge : Bool
  /-- ABORT- is pulsed low during the coming step. -/
  abort : Bool
deriving DecidableEq, Repr

/-- No input is active. -/
def Inputs.quiet : Inputs where
  res := .inactive
  irq := false
  nmiEdge := false
  abort := false

/-- The kinds of qualified access (R88). -/
inductive BusKind where
  | opcodeFetch
  | operandFetch
  | pointerRead
  | dataRead
  | dataWrite
  | stackRead
  | stackWrite
  | vectorRead
deriving DecidableEq, Repr

/-- One qualified bus access: its kind, its physical address and the byte moved (R88). -/
structure BusEvent where
  kind : BusKind
  addr : Nat
  data : Byte
deriving DecidableEq, Repr

/-- The state of the machine (R20) and the model's own fields. -/
structure State where
  /-- A: the accumulator (R21). -/
  a : Word
  /-- X: index register X (R24). -/
  x : Word
  /-- Y: index register Y (R24). -/
  y : Word
  /-- S: the stack pointer (R42). -/
  sp : Half
  /-- D: the direct register (R40). -/
  dr : Half
  /-- PC: the program counter (R29). -/
  pc : Half
  /-- PBR: the program bank register (R41). -/
  pbr : Byte
  /-- DBR: the data bank register (R39). -/
  dbr : Byte
  /-- P: the status register (R32). -/
  p : Status
  /-- E8: mode bit (R33). -/
  e8 : Bool
  /-- E16: mode bit (R33). -/
  e16 : Bool
  /-- Whether the processor is running, waiting or stopped (R47). -/
  run : RunState
  /-- The NMI- edge latch (R45). -/
  nmiPending : Bool
  /-- The ABORT- latch (R46). -/
  abortPending : Bool
  /-- Memory (R70). -/
  mem : List Host.Cell
  /-- MODEL: the open parameters of the spec (log 1). -/
  cfg : Config
  /-- MODEL: what the environment presents at the coming boundaries, first one first; after its end, nothing (R360, log 8). -/
  inputs : List Inputs
  /-- MODEL: the qualified bus accesses of the step just made, in bus order (R78, R88, log 15). -/
  bus : List BusEvent
  /-- MODEL: how many free values have been taken (R16, log 3). -/
  freeIdx : Nat
deriving DecidableEq, Repr

/-! ## Plain updates of one register -/

/-- The state with `a` replaced. -/
def State.setA (v : Word) (s : State) : State :=
  { s with a := v }

/-- The state with `x` replaced. -/
def State.setX (v : Word) (s : State) : State :=
  { s with x := v }

/-- The state with `y` replaced. -/
def State.setY (v : Word) (s : State) : State :=
  { s with y := v }

/-- The state with `sp` replaced. -/
def State.setSp (v : Half) (s : State) : State :=
  { s with sp := v }

/-- The state with `dr` replaced. -/
def State.setDr (v : Half) (s : State) : State :=
  { s with dr := v }

/-- The state with `pc` replaced. -/
def State.setPc (v : Half) (s : State) : State :=
  { s with pc := v }

/-- The state with `pbr` replaced. -/
def State.setPbr (v : Byte) (s : State) : State :=
  { s with pbr := v }

/-- The state with `dbr` replaced. -/
def State.setDbr (v : Byte) (s : State) : State :=
  { s with dbr := v }

/-- The state with `p` replaced. -/
def State.setP (v : Status) (s : State) : State :=
  { s with p := v }

/-- The state with the two mode bits replaced. -/
def State.setModes (vE8 vE16 : Bool) (s : State) : State :=
  { s with e8 := vE8, e16 := vE16 }

/-- The state with `run` replaced. -/
def State.setRun (v : RunState) (s : State) : State :=
  { s with run := v }

/-- The state with `nmiPending` replaced. -/
def State.setNmi (v : Bool) (s : State) : State :=
  { s with nmiPending := v }

/-- The state with `abortPending` replaced. -/
def State.setAbort (v : Bool) (s : State) : State :=
  { s with abortPending := v }

/-- The state with `mem` replaced. -/
def State.setMem (v : List Host.Cell) (s : State) : State :=
  { s with mem := v }

/-- The state with `inputs` replaced. -/
def State.setInputs (v : List Inputs) (s : State) : State :=
  { s with inputs := v }

/-- The state with `bus` replaced. -/
def State.setBus (v : List BusEvent) (s : State) : State :=
  { s with bus := v }

/-- The state with `freeIdx` replaced. -/
def State.setFreeIdx (v : Nat) (s : State) : State :=
  { s with freeIdx := v }

/-- Right after reset (R49). A, the low bytes of X, Y and S, and N, V, Z, C are "not initialised" in the spec: the 0
they hold here is a DESIGN CHOICE (log 5), as are the empty memory and with it the reset vector read from it (log 6),
no coming inputs (log 8) and the start of the free values (log 3). -/
def State.reset : State where
  a := 0
  x := 0
  y := 0
  sp := 0x0100
  dr := 0
  pc := (Mem.read [] 0xFFFC).setWidth 16 ||| (Mem.read [] 0xFFFD).setWidth 16 <<< 8
  pbr := 0
  dbr := 0
  p :=
    { n := false, v := false, m := true, x := true, d := false, i := true, z := false, c := false }
  e8 := true
  e16 := true
  run := .running
  nmiPending := false
  abortPending := false
  mem := []
  cfg := Config.default
  inputs := []
  bus := []
  freeIdx := 0

end Sys2Proof.Machine
end

