-- ==== Sys2Proof/Machine/Ops.lean ====
section
/-! DEFINITION. The operations every instruction is made of: modes and widths (R3, R14), memory and the order of its
bytes (R70 to R78), the stack (R80 to R83), free values (R16), the status byte (R13, R36), the normalisation after a
mode write (R320), entering an interrupt (R370) and returning from one (R342), and reset (R410). -/

namespace Sys2Proof.Machine

/-- What a meaning answers. -/
abbrev Out := Host.Outcome State Fault Refusal

/-! ## Modes and widths -/

/-- W65C02 emulation (R3). -/
def State.emu8 (s : State) : Bool := s.e16 && s.e8

/-- W65C816 emulation (R3). -/
def State.emu16 (s : State) : Bool := s.e16 && !s.e8

/-- W65C832 native (R3). -/
def State.native (s : State) : Bool := !s.e16

/-- `mw` as a function of M, E16 and E8 (R34). -/
def accWidth (m e16 e8 : Bool) : Width :=
  if m then .w8 else if !e16 && e8 then .w32 else .w16

/-- `xw` as a function of Xf and E16 (R34). -/
def idxWidth (x e16 : Bool) : Width :=
  if x then .w8 else if e16 then .w16 else .w32

/-- `mw`: the accumulator and memory width in force (R34). -/
def State.mw (s : State) : Width := accWidth s.p.m s.e16 s.e8

/-- `xw`: the index width in force (R34). -/
def State.xw (s : State) : Width := idxWidth s.p.x s.e16

/-- What the decoder needs to know of the state (R104). -/
def State.ctx (s : State) : DecodeCtx where
  mw := s.mw
  xw := s.xw
  native := s.native
  xfe := s.cfg.xfeOpcode

/-- `Am`: the accumulator at its width (R14). -/
def State.am (s : State) : Word := s.mw.trunc s.a

/-- `ix = zext_32(Xx)` (R132). -/
def State.ix (s : State) : Word := s.xw.trunc s.x

/-- `iy = zext_32(Yx)` (R132). -/
def State.iy (s : State) : Word := s.xw.trunc s.y

/-- `A[w-1:0] <- v` (R22). -/
def State.writeA (w : Width) (v : Word) (s : State) : State := s.setA (w.merge s.a v)

/-- `X[w-1:0] <- v` (R26). -/
def State.writeX (w : Width) (v : Word) (s : State) : State := s.setX (w.merge s.x v)

/-- `Y[w-1:0] <- v` (R26). -/
def State.writeY (w : Width) (v : Word) (s : State) : State := s.setY (w.merge s.y v)

/-- "PC advances" by the length of the instruction, inside the program bank (R16, R30). -/
def State.advance (len : Nat) (s : State) : State := s.setPc (s.pc + BitVec.ofNat 16 len)

/-! ## Memory -/

/-- The physical address an effective address reaches (R73). -/
def State.phys (s : State) (a : Word) : Nat := a.toNat % 2 ^ s.cfg.addrBits.bits

/-- The byte at a 32-bit address (R73). -/
def State.read8 (s : State) (a : Word) : Byte := Mem.read s.mem (s.phys a)

/-- Record a read of the byte at a 32-bit address (R88). -/
def State.noteRead (k : BusKind) (a : Word) (s : State) : State :=
  s.setBus (s.bus ++ [⟨k, s.phys a, s.read8 a⟩])

/-- Write the byte at a 32-bit address, and record the write (R73, R88). -/
def State.write8 (k : BusKind) (a : Word) (v : Byte) (s : State) : State :=
  (s.setMem (Mem.write s.mem (s.phys a) v)).setBus (s.bus ++ [⟨k, s.phys a, v⟩])

/-- The wrap kinds of R15 and R76. -/
inductive Wrap where
  | lin
  | bank0
  | page
  | pbank
deriving DecidableEq, Repr

/-- An effective address: the address of byte 0 and how the addresses of the following bytes are formed (R15). -/
structure EA where
  addr : Word
  kind : Wrap
deriving DecidableEq, Repr

/-- The address of byte `i` of an access at an effective address (R76). -/
def State.byteAddr (s : State) (ea : EA) (i : Nat) : Word :=
  match ea.kind with
  | .lin =>
    if s.native then ea.addr + BitVec.ofNat 32 i else low24 (ea.addr + BitVec.ofNat 32 i)
  | .bank0 => bankAddr 0 (lowHalf ea.addr + BitVec.ofNat 16 i)
  | .page => bankAddr 0 (joinBytes (halfHi (lowHalf ea.addr)) (lowByte ea.addr + BitVec.ofNat 8 i))
  | .pbank => bankAddr s.pbr (lowHalf ea.addr + BitVec.ofNat 16 i)

/-- `MemRead(ea, n)`: byte 0 is the least significant (R77). -/
def State.memRead (s : State) (ea : EA) : Nat → Word
  | 0 => 0
  | n + 1 => s.memRead ea n ||| zextByte (s.read8 (s.byteAddr ea n)) <<< (8 * n)

/-- Record the reads of `MemRead(ea, n)`, byte 0 first (R77, R88). -/
def State.noteReads (k : BusKind) (ea : EA) (n : Nat) (s : State) : State :=
  s.setBus (s.bus ++ (List.range n).map fun i => ⟨k, s.phys (s.byteAddr ea i), s.read8 (s.byteAddr ea i)⟩)

/-- Write the bytes of `v` with the given numbers, in the order given (R78). -/
def State.writeBytes (ea : EA) (v : Word) : List Nat → State → State
  | [], s => s
  | i :: rest, s => State.writeBytes ea v rest (s.write8 .dataWrite (s.byteAddr ea i) (byteOf v i))

/-- `MemWrite(ea, n, v)` of a plain store: byte 0 first (R78). -/
def State.memWrite (ea : EA) (n : Nat) (v : Word) (s : State) : State := s.writeBytes ea v (List.range n)

/-- `MemWrite(ea, n, v)` of the write-back of a read-modify-write instruction: byte 0 last (R78, R204). -/
def State.memWriteBack (ea : EA) (n : Nat) (v : Word) (s : State) : State :=
  s.writeBytes ea v (List.range n).reverse

/-! ## Instruction bytes -/

/-- The address of instruction byte `i`: `{PBR, (PC + i) mod 2^16}` (R74). -/
def State.fetchAddr (s : State) (i : Nat) : Word := bankAddr s.pbr (s.pc + BitVec.ofNat 16 i)

/-- `Fetch(i)` (R74). -/
def State.fetch (s : State) (i : Nat) : Byte := s.read8 (s.fetchAddr i)

/-- The instruction at PBR:PC, decoded with the widths in force (R104). -/
def State.fetchInstr (s : State) : Instr :=
  decodeBytes s.ctx (s.fetch 0) (s.fetch 1) (s.fetch 2) (s.fetch 3) (s.fetch 4)

/-- Record the fetch of instruction byte `i` (R88). -/
def State.noteFetch (i : Nat) (s : State) : State :=
  s.noteRead (if i = 0 then .opcodeFetch else .operandFetch) (s.fetchAddr i)

/-- Record the fetches of the first `n` instruction bytes, in order. -/
def State.noteFetches : Nat → State → State
  | 0, s => s
  | n + 1, s => (State.noteFetches n s).noteFetch n

/-- How many bytes of an instruction are fetched before anything else it does: all of them, but for the two calls
that push before they fetch their last operand byte (R298, R299). -/
def fetchedFirst (i : Instr) : Nat :=
  match i with
  | .jsrAbsXInd _ => 2
  | .jsl _ => 3
  | _ => i.len

/-- Instruction byte `i` as fetched in state `t`, after the instruction has already written memory: `op`, the byte
decoded before, unless the instruction's own writes since state `s` have changed it (R298, R299, log 16). -/
def refetch (s t : State) (i : Nat) (op : Byte) : Byte := if t.fetch i = s.fetch i then op else t.fetch i

/-! ## Stack -/

/-- `SH <- $01` (R37). -/
def pageOne (sp : Half) : Half := joinBytes 0x01 (halfLo sp)

/-- A stack pointer value with the `emu8` invariant restored (R43, R83). -/
def State.wrapS (s : State) (sp : Half) : Half := if s.emu8 then pageOne sp else sp

/-- How S moves: inside page 1 in `emu8` (R80, R82), or as a plain 16-bit number (R83). -/
inductive StackRule where
  | wrapping
  | plain
deriving DecidableEq, Repr

/-- S after a move under a rule. -/
def State.stackPtr (s : State) (r : StackRule) (sp : Half) : Half :=
  match r with
  | .wrapping => s.wrapS sp
  | .plain => sp

/-- `Push8(v)` (R80), `Push8n(v)` (R83). -/
def State.push8 (r : StackRule) (v : Byte) (s : State) : State :=
  (s.write8 .stackWrite (zextHalf s.sp) v).setSp (s.stackPtr r (s.sp - 1))

/-- `PushN(v, n)` (R81), `PushNn(v, n)` (R83): the most significant byte first. -/
def State.pushN (r : StackRule) (v : Word) : Nat → State → State
  | 0, s => s
  | n + 1, s => State.pushN r v n (s.push8 r (byteOf v n))

/-- `Pull8()` (R82), `Pull8n()` (R83): the byte pulled and the state after. -/
def State.pull8 (r : StackRule) (s : State) : Byte × State :=
  let sp := s.stackPtr r (s.sp + 1)
  (s.read8 (zextHalf sp), (s.setSp sp).noteRead .stackRead (zextHalf sp))

/-- `PullN(n)` (R82), `PullNn(n)` (R83): byte 0 first. -/
def State.pullN (r : StackRule) : Nat → State → Word × State
  | 0, s => (0, s)
  | n + 1, s =>
    let q := State.pullN r n s
    let p := q.2.pull8 r
    (q.1 ||| zextByte p.1 <<< (8 * n), p.2)

/-- The end of an instruction whose stack accesses do not wrap: in `emu8`, `S[15:8] <- $01` (R83, D25). -/
def State.forceSH (s : State) : State := s.setSp (s.wrapS s.sp)

/-! ## Free values -/

/-- The `k`-th free value from here on (R16). -/
def State.free (s : State) (k : Nat) : Word := Config.freeValue (s.freeIdx + k)

/-- `draw(1)` (R16). -/
def State.freeBit (s : State) (k : Nat) : Bool := (s.free k).getLsbD 0

/-- Use up `k` free values: no later draw names them again. -/
def State.useFree (k : Nat) (s : State) : State := s.setFreeIdx (s.freeIdx + k)

/-! ## The status byte -/

/-- Bit `k` of a byte. -/
def bitAt (k : Nat) (b : Bool) : Byte := if b then BitVec.ofNat 8 (2 ^ k) else 0

/-- The byte N V M Xf Df I Z C, bit 7 first (R13). -/
def Status.toByte (p : Status) : Byte :=
  bitAt 7 p.n ||| bitAt 6 p.v ||| bitAt 5 p.m ||| bitAt 4 p.x ||| bitAt 3 p.d ||| bitAt 2 p.i ||| bitAt 1 p.z |||
    bitAt 0 p.c

/-- The flags of a byte N V M Xf Df I Z C (R13). -/
def Status.ofByte (b : Byte) : Status where
  n := b.getLsbD 7
  v := b.getLsbD 6
  m := b.getLsbD 5
  x := b.getLsbD 4
  d := b.getLsbD 3
  i := b.getLsbD 2
  z := b.getLsbD 1
  c := b.getLsbD 0

/-- P with M and Xf of `q`, which no write of P changes in `emu8` (R35). -/
def Status.keepWidths (q p : Status) : Status := { p with m := q.m, x := q.x }

/-- The byte pushed for P: in `emu8` bit 5 is 1 and bit 4 is the Break flag `brk`; elsewhere it is P (R36, R373). -/
def State.pushedP (s : State) (brk : Bool) : Byte :=
  if s.emu8 then Status.toByte { s.p with m := true, x := brk } else s.p.toByte

/-- Write P from a byte; in `emu8` bits 5 and 4 are ignored (R35, R256). -/
def State.writeP (b : Byte) (s : State) : State :=
  s.setP (if s.emu8 then s.p.keepWidths (Status.ofByte b) else Status.ofByte b)

/-! ## Normalisation (R320) -/

/-- R320 (1): in `emu8`, M and Xf are 1 and SH is `$01`. -/
def State.normEmu8 (s : State) : State :=
  if s.emu8 then (s.setP { s.p with m := true, x := true }).setSp (pageOne s.sp) else s

/-- R320 (2), R25: while Xf is 1, bits 31:8 of X and Y are 0. -/
def State.normIndex (s : State) : State :=
  if s.p.x then (s.setX (Width.w8.trunc s.x)).setY (Width.w8.trunc s.y) else s

/-- R320 (3), R27: X[31:16] and Y[31:16] when the step took the index width from 16 to 32 bits; `old` is the index
width before the step. -/
def State.normWiden (old : Width) (s : State) : State :=
  if old = .w16 ∧ s.xw = .w32 then
    match s.cfg.idxHigh with
    | .draw =>
      ((s.setX (Width.w16.merge (s.free 0) s.x)).setY (Width.w16.merge (s.free 1) s.y)).useFree 2
    | .zero => (s.setX (Width.w16.trunc s.x)).setY (Width.w16.trunc s.y)
    | .preserved => s
  else s

/-- The normalisation after a write of M, Xf, E8 or E16 (R320). -/
def State.normalise (old : Width) (s : State) : State := (s.normEmu8.normIndex).normWiden old

/-! ## Interrupts -/

/-- The sources of the interrupt sequence (R361); reset has its own (R410). -/
inductive IntSource where
  | irq
  | brk
  | nmi
  | abort
  | cop
deriving DecidableEq, Repr

/-- The vector of a source in the mode at the time it is taken (R368). -/
def State.vector (s : State) (src : IntSource) : Half :=
  if s.emu8 then
    match src with
    | .irq => 0xFFFE
    | .brk => 0xFFFE
    | .nmi => 0xFFFA
    | .abort => 0xFFF8
    | .cop => 0xFFF4
  else if s.native then
    match src with
    | .irq => 0xFFDE
    | .brk => 0xFFD6
    | .nmi => 0xFFDA
    | .abort => 0xFFD8
    | .cop => 0xFFD4
  else
    match src with
    | .irq => 0xFFEE
    | .brk => 0xFFE6
    | .nmi => 0xFFEA
    | .abort => 0xFFE8
    | .cop => 0xFFE4

/-- The effective address of a vector: two bytes of bank 0 (R375). -/
def vectorEA (v : Half) : EA := ⟨zextHalf v, .bank0⟩

/-- The vector of reset (R368, R410). -/
def resetVector : Half := 0xFFFC

/-- `PC <- MemRead(vector, 2)` (R370 step 6, R410). -/
def State.enterVector (v : Half) (s : State) : State :=
  (s.noteReads .vectorRead (vectorEA v) 2).setPc (lowHalf (s.memRead (vectorEA v) 2))

/-- The frame of an interrupt, R370 steps 1 to 3: PBR outside `emu8`, the return address, P. -/
def State.pushFrame (ret : Half) (brk : Bool) (s : State) : State :=
  let t := if s.emu8 then s else s.push8 .wrapping s.pbr
  (t.pushN .wrapping (zextHalf ret) 2).push8 .wrapping (s.pushedP brk)

/-- `Interrupt(source, ret, b)` (R370): what the hardware does on entry, for IRQ, NMI, ABORT, BRK and COP alike. -/
def State.interrupt (src : IntSource) (ret : Half) (brk : Bool) (s : State) : State :=
  let t := s.pushFrame ret brk
  let u := (t.setP { t.p with d := false, i := true }).setPbr 0
  let w := if s.emu8 then u.setDbr 0 else u
  (w.enterVector (s.vector src)).setRun .running

/-- The return from an interrupt (R342, R385): P, PC and, outside `emu8`, PBR are pulled; then R320. -/
def State.returnFromInterrupt (s : State) : State :=
  let p := s.pull8 .wrapping
  let q := (p.2.writeP p.1).pullN .wrapping 2
  let t := q.2.setPc (lowHalf q.1)
  let u := if s.emu8 then t else (t.pull8 .wrapping).2.setPbr (t.pull8 .wrapping).1
  u.normalise s.xw

/-! ## Reset -/

/-- What the registers that reset does not initialise hold after it (R411). Under `preserve` the low byte of S is kept
as it was, as vector RS1 has it, and not moved down by the 3 that the parenthesis of R411 speaks of (log 24). -/
def State.resetValues (s : State) : Uninit :=
  match s.cfg.resetDraw with
  | .draw =>
    { a := s.free 0, xl := lowByte (s.free 1), yl := lowByte (s.free 2), sl := lowByte (s.free 3)
      n := s.freeBit 4, v := s.freeBit 5, z := s.freeBit 6, c := s.freeBit 7 }
  | .preserve =>
    { a := s.a, xl := lowByte s.x, yl := lowByte s.y, sl := halfLo s.sp
      n := s.p.n, v := s.p.v, z := s.p.z, c := s.p.c }
  | .const u => u

/-- The registers after reset, PC apart (R410, R411). -/
def State.resetRegs (u : Uninit) (s : State) : State :=
  let r := (((s.setA u.a).setX (zextByte u.xl)).setY (zextByte u.yl)).setSp (joinBytes 0x01 u.sl)
  let t := ((r.setDr 0).setPbr 0).setDbr 0
  let q := t.setP { n := u.n, v := u.v, m := true, x := true, d := false, i := true, z := u.z, c := u.c }
  (((q.setModes true true).setRun .running).setNmi false).setAbort false

/-- Reset (R410): the registers take their reset values, the three stack cycles are reads, and PC is read from the
reset vector. Memory is not changed. -/
def State.resetSequence (s : State) : State :=
  let t := ((s.resetRegs s.resetValues).useFree 8)
  let u := ((t.noteRead .stackRead (zextHalf t.sp)).noteRead .stackRead (zextHalf (pageOne (t.sp - 1)))).noteRead
    .stackRead (zextHalf (pageOne (t.sp - 2)))
  u.enterVector resetVector

end Sys2Proof.Machine
end

