-- ==== Sys2Proof/Machine/Flags.lean ====
section
/-! DEFINITION. Flag computations: N and Z of a result (R170), binary and decimal addition and subtraction (R191 to
R196), comparison (R201), and what the shifts, counts and bit tests do to a value and the flags (R200, R205 to R216). -/

namespace Sys2Proof.Machine

/-- `v = 0` at width `w`. -/
def isZero (w : Width) (v : Word) : Bool := w.trunc v == 0

/-- `setNZ(v, w)` (R170) on P. -/
def Status.nz (w : Width) (v : Word) (p : Status) : Status := { p with n := w.msb v, z := isZero w v }

/-- `setNZ(v, w)` (R170). -/
def State.setNZ (w : Width) (v : Word) (s : State) : State := s.setP (s.p.nz w v)

/-! ## Addition and subtraction -/

/-- The result, carry and overflow of `add(a, m, cin, w)` (R191). -/
structure AddResult where
  r : Word
  cout : Bool
  v : Bool
deriving DecidableEq, Repr

/-- `zext(a) + zext(m) + cin`, not cut (R191). -/
def addSum (w : Width) (a m : Word) (cin : Bool) : Nat := (w.trunc a).toNat + (w.trunc m).toNat + cin.toNat

/-- `add(a, m, cin, w)` (R191). -/
def addBinary (w : Width) (a m : Word) (cin : Bool) : AddResult :=
  let r := BitVec.ofNat 32 (addSum w a m cin % 2 ^ w.bits)
  { r := r
    cout := decide (2 ^ w.bits ≤ addSum w a m cin)
    v := w.msb a == w.msb m && w.msb r != w.msb a }

/-- Decimal digit `i` of a packed value (R192). -/
def digit (v : Word) (i : Nat) : Nat := (v.toNat / 16 ^ i) % 16

/-- The number of decimal digits at a width: `w/4` (R192). -/
def Width.digits (w : Width) : Nat := w.bits / 4

/-- Every one of the first `n` digits is at most 9 (R192). -/
def bcdValid (v : Word) : Nat → Bool
  | 0 => true
  | n + 1 => bcdValid v n && decide (digit v n ≤ 9)

/-- `dec(v)` on the first `n` digits (R192). -/
def decValue (v : Word) : Nat → Nat
  | 0 => 0
  | n + 1 => decValue v n + digit v n * 10 ^ n

/-- The number whose `n` hexadecimal digits are the last `n` decimal digits of `k`. -/
def bcdNat (k : Nat) : Nat → Nat
  | 0 => 0
  | n + 1 => bcdNat k n + (k / 10 ^ n) % 10 * 16 ^ n

/-- `bcd(k)` on `n` digits (R192). -/
def bcdOf (n k : Nat) : Word := BitVec.ofNat 32 (bcdNat k n)

/-- The decimal sum and its carry, of valid operands (R192). -/
def addDecimal (w : Width) (a m : Word) (cin : Bool) : Word × Bool :=
  let k := decValue a (Width.digits w) + decValue m (Width.digits w) + cin.toNat
  (bcdOf (Width.digits w) (k % 10 ^ Width.digits w), decide (10 ^ Width.digits w ≤ k))

/-- The decimal difference and its carry, of valid operands: carry clear is a borrow taken (R196). -/
def subDecimal (w : Width) (a m : Word) (cin : Bool) : Word × Bool :=
  let x := decValue a (Width.digits w)
  let y := decValue m (Width.digits w) + (!cin).toNat
  if x < y then (bcdOf (Width.digits w) (x + 10 ^ Width.digits w - y), false)
  else (bcdOf (Width.digits w) (x - y), true)

/-- Both operands are packed decimal at the width (R192). -/
def bothDecimal (w : Width) (a m : Word) : Bool :=
  bcdValid a (Width.digits w) && bcdValid m (Width.digits w)

/-- The result of ADC or SBC, the four flags it sets, and how many free values it has taken. -/
structure AluResult where
  r : Word
  n : Bool
  v : Bool
  z : Bool
  c : Bool
  drawn : Nat
deriving DecidableEq, Repr

/-- A binary result (R194, R195). -/
def aluBinary (w : Width) (b : AddResult) : AluResult where
  r := b.r
  n := w.msb b.r
  v := b.v
  z := isZero w b.r
  c := b.cout
  drawn := 0

/-- A decimal result of valid operands: N and Z of the result, C its carry, V as `DECIMAL_V` says (R193); `binV` is
the V of the binary operation on the same operands. -/
def aluDecimal (s : State) (w : Width) (d : Word × Bool) (binV : Bool) : AluResult where
  r := d.1
  n := w.msb d.1
  v := match s.cfg.decimalV with
    | .draw => s.freeBit 0
    | .binary => binV
  z := isZero w d.1
  c := d.2
  drawn := match s.cfg.decimalV with
    | .draw => 1
    | .binary => 0

/-- A decimal operation on an operand with a digit above 9: the result and the four flags are free (R192, R196). -/
def aluFree (s : State) (w : Width) : AluResult where
  r := w.trunc (s.free 0)
  n := s.freeBit 1
  v := s.freeBit 2
  z := s.freeBit 3
  c := s.freeBit 4
  drawn := 5

/-- ADC of `m` to `Am` (R194). -/
def State.adcResult (s : State) (m : Word) : AluResult :=
  if s.p.d then
    if bothDecimal s.mw s.am m then
      aluDecimal s s.mw (addDecimal s.mw s.am m s.p.c) (addBinary s.mw s.am m s.p.c).v
    else aluFree s s.mw
  else aluBinary s.mw (addBinary s.mw s.am m s.p.c)

/-- SBC of `m` from `Am` (R195, R196). -/
def State.sbcResult (s : State) (m : Word) : AluResult :=
  if s.p.d then
    if bothDecimal s.mw s.am m then
      aluDecimal s s.mw (subDecimal s.mw s.am m s.p.c) (addBinary s.mw s.am (s.mw.not m) s.p.c).v
    else aluFree s s.mw
  else aluBinary s.mw (addBinary s.mw s.am (s.mw.not m) s.p.c)

/-- Write the result of ADC or SBC: the accumulator at its width, and N, V, Z, C (R194, R195). -/
def State.putAlu (w : Width) (q : AluResult) (s : State) : State :=
  ((s.writeA w q.r).setP { s.p with n := q.n, v := q.v, z := q.z, c := q.c }).useFree q.drawn

/-! ## Comparison and bit test -/

/-- What CMP, CPX and CPY do to P: `r = reg - m`, C is `reg >= m` unsigned; V and Df play no part (R201 to R203). -/
def Status.compare (w : Width) (reg m : Word) (p : Status) : Status :=
  let q := addBinary w reg (w.not m) true
  { p.nz w q.r with c := q.cout }

/-- What BIT on memory does to P (R200): Z from `A and M`, N and V from the top two bits of the operand. -/
def Status.bitTest (w : Width) (a m : Word) (p : Status) : Status :=
  { p with z := isZero w (a &&& m), n := w.msb m, v := w.msb2 m }

/-- What BIT immediate does to P (R200): only Z. -/
def Status.bitTestImm (w : Width) (a m : Word) (p : Status) : Status := { p with z := isZero w (a &&& m) }

/-! ## Shifts, counts, test-and-set: the new value and the new flags, from the old -/

/-- ASL (R205). -/
def aslOp (w : Width) (m : Word) (p : Status) : Word × Status :=
  let r := w.trunc (m <<< 1)
  (r, { p.nz w r with c := w.msb m })

/-- LSR (R206): 0 into the top bit, so N becomes 0. -/
def lsrOp (w : Width) (m : Word) (p : Status) : Word × Status :=
  let r := w.trunc m >>> 1
  (r, { p with n := false, z := isZero w r, c := m.getLsbD 0 })

/-- ROL (R207). -/
def rolOp (w : Width) (m : Word) (p : Status) : Word × Status :=
  let r := w.trunc (m <<< 1 ||| (if p.c then 1 else 0))
  (r, { p.nz w r with c := w.msb m })

/-- ROR (R208). -/
def rorOp (w : Width) (m : Word) (p : Status) : Word × Status :=
  let r := w.trunc m >>> 1 ||| (if p.c then (1 : Word) <<< (w.bits - 1) else 0)
  (r, { p.nz w r with c := m.getLsbD 0 })

/-- INC (R209). -/
def incOp (w : Width) (m : Word) (p : Status) : Word × Status :=
  let r := w.trunc (m + 1)
  (r, p.nz w r)

/-- DEC (R210). -/
def decOp (w : Width) (m : Word) (p : Status) : Word × Status :=
  let r := w.trunc (m - 1)
  (r, p.nz w r)

/-- TSB with accumulator `a` (R215): Z from the old value. -/
def tsbOp (a : Word) (w : Width) (m : Word) (p : Status) : Word × Status :=
  (w.trunc (m ||| a), { p with z := isZero w (a &&& m) })

/-- TRB with accumulator `a` (R216): Z from the old value. -/
def trbOp (a : Word) (w : Width) (m : Word) (p : Status) : Word × Status :=
  (w.trunc (m &&& ~~~a), { p with z := isZero w (a &&& m) })

end Sys2Proof.Machine
end

