-- ==== Sys2Proof/Machine/Operands.lean ====
section
/-! DEFINITION. The addressing modes (R130 to R159): effective addresses, pointer reads, and the operands of the
instructions that read or write memory at a width. -/

namespace Sys2Proof.Machine

/-- The value of an immediate, zero-extended to 32 bits (R105, R133). -/
def immValue : Imm → Word
  | .b1 v => zextByte v
  | .b2 v => zextHalf v
  | .b4 v => v

/-- `Dp(offset)` (R136): inside the page `DH` in `emu8` with DL = 0, else anywhere in bank 0. -/
def State.dp (s : State) (off : Byte) : EA :=
  if s.emu8 ∧ halfLo s.dr = 0 then ⟨zextHalf (joinBytes (halfHi s.dr) off), .page⟩
  else ⟨zextHalf (s.dr + off.setWidth 16), .bank0⟩

/-- `Dpx(offset)` (R143): as `Dp` with an index added, the sum cut to 16 bits (D17), or to 8 in the page. -/
def State.dpIndexed (s : State) (off : Byte) (index : Word) : EA :=
  if s.emu8 ∧ halfLo s.dr = 0 then ⟨zextHalf (joinBytes (halfHi s.dr) (off + lowByte index)), .page⟩
  else ⟨zextHalf (s.dr + off.setWidth 16 + lowHalf index), .bank0⟩

/-- `({$0000, (D + offset) mod 2^16}, BANK0)`: the pointer location of `[d]`, `[d],y` and PEI, which never wraps in
the page (R140). -/
def State.dpLinear (s : State) (off : Byte) : EA := ⟨zextHalf (s.dr + off.setWidth 16), .bank0⟩

/-- `({$0000, (S + offset) mod 2^16}, BANK0)` (R154, R155). -/
def State.stackRel (s : State) (off : Byte) : EA := ⟨zextHalf (s.sp + off.setWidth 16), .bank0⟩

/-- A 24-bit base and an index: 32 bits in native mode, 24 bits otherwise (R132). -/
def State.indexed (s : State) (base index : Word) : EA :=
  ⟨if s.native then base + index else low24 (base + index), .lin⟩

/-- `{$00, DBR, offset}` (R134). -/
def State.dataAddr (s : State) (off : Half) : Word := bankAddr s.dbr off

/-- The pointer of `(a,x)`: in the program bank, the sum cut to 16 bits (R152, D17). -/
def State.progPointer (s : State) (addr : Half) : EA := ⟨bankAddr s.pbr (addr + lowHalf s.ix), .pbank⟩

/-- The pointer of `(a)`: in bank 0 (R149). -/
def bank0Pointer (addr : Half) : EA := ⟨zextHalf addr, .bank0⟩

/-- The addressing modes of memory data (R131, R136 to R155), with their operand bytes. -/
inductive Mode where
  | dir (off : Byte)
  | dirX (off : Byte)
  | dirY (off : Byte)
  | dirInd (off : Byte)
  | dirXInd (off : Byte)
  | dirIndY (off : Byte)
  | dirLong (off : Byte)
  | dirLongY (off : Byte)
  | stk (off : Byte)
  | stkIndY (off : Byte)
  | abs (addr : Half)
  | absX (addr : Half)
  | absY (addr : Half)
  | long (addr : BitVec 24)
  | longX (addr : BitVec 24)
deriving DecidableEq, Repr

/-- The pointer a mode reads, and how many bytes it has (R84, R139 to R142, R150, R151, R155). -/
def Mode.pointer (s : State) : Mode → Option (EA × Nat)
  | .dir _ => none
  | .dirX _ => none
  | .dirY _ => none
  | .dirInd off => some (s.dp off, 2)
  | .dirXInd off => some (s.dpIndexed off s.ix, 2)
  | .dirIndY off => some (s.dp off, 2)
  | .dirLong off => some (s.dpLinear off, 3)
  | .dirLongY off => some (s.dpLinear off, 3)
  | .stk _ => none
  | .stkIndY off => some (s.stackRel off, 2)
  | .abs _ => none
  | .absX _ => none
  | .absY _ => none
  | .long _ => none
  | .longX _ => none

/-- `EA[mode]` (R134 to R155). -/
def Mode.ea (s : State) : Mode → EA
  | .dir off => s.dp off
  | .dirX off => s.dpIndexed off s.ix
  | .dirY off => s.dpIndexed off s.iy
  | .dirInd off => ⟨s.dataAddr (lowHalf (s.memRead (s.dp off) 2)), .lin⟩
  | .dirXInd off => ⟨s.dataAddr (lowHalf (s.memRead (s.dpIndexed off s.ix) 2)), .lin⟩
  | .dirIndY off => s.indexed (s.dataAddr (lowHalf (s.memRead (s.dp off) 2))) s.iy
  | .dirLong off => ⟨s.memRead (s.dpLinear off) 3, .lin⟩
  | .dirLongY off => s.indexed (s.memRead (s.dpLinear off) 3) s.iy
  | .stk off => s.stackRel off
  | .stkIndY off => s.indexed (s.dataAddr (lowHalf (s.memRead (s.stackRel off) 2))) s.iy
  | .abs addr => ⟨s.dataAddr addr, .lin⟩
  | .absX addr => s.indexed (s.dataAddr addr) s.ix
  | .absY addr => s.indexed (s.dataAddr addr) s.iy
  | .long addr => ⟨zextLong addr, .lin⟩
  | .longX addr => s.indexed (zextLong addr) s.ix

/-- The length of an instruction in a mode: the opcode and the mode's operand bytes (R101). -/
def Mode.len : Mode → Nat
  | .dir _ => 2
  | .dirX _ => 2
  | .dirY _ => 2
  | .dirInd _ => 2
  | .dirXInd _ => 2
  | .dirIndY _ => 2
  | .dirLong _ => 2
  | .dirLongY _ => 2
  | .stk _ => 2
  | .stkIndY _ => 2
  | .abs _ => 3
  | .absX _ => 3
  | .absY _ => 3
  | .long _ => 4
  | .longX _ => 4

/-- Record the pointer reads of a mode (R88). -/
def Mode.notePointer (m : Mode) (s : State) : State :=
  match m.pointer s with
  | none => s
  | some (ea, n) => s.noteReads .pointerRead ea n

/-- Record the pointer reads of a mode and the read of `n` bytes at its address (R88). -/
def Mode.noteData (m : Mode) (n : Nat) (s : State) : State :=
  (m.notePointer s).noteReads .dataRead (m.ea s) n

/-- The operand of an instruction that reads a value: an immediate or a memory operand. -/
inductive Operand where
  | imm (v : Imm)
  | mem (m : Mode)
deriving DecidableEq, Repr

/-- `OperandM(mode)` with `w = mw`, `OperandX(mode)` with `w = xw` (R170). -/
def Operand.value (w : Width) (s : State) : Operand → Word
  | .imm v => w.trunc (immValue v)
  | .mem m => s.memRead (m.ea s) w.bytes

/-- Record the accesses that read an operand (R88); those of an immediate are instruction fetches. -/
def Operand.note (w : Width) (o : Operand) (s : State) : State :=
  match o with
  | .imm _ => s
  | .mem m => m.noteData w.bytes s

/-- The length of an instruction with an operand (R101, R103). -/
def Operand.len : Operand → Nat
  | .imm v => 1 + v.width.bytes
  | .mem m => m.len

end Sys2Proof.Machine
end

