-- ==== Sys2Proof/Machine/Arithmetic.lean ====
section
/-! DEFINITION. Addition, subtraction, logic, comparison and bit test: ADC SBC AND ORA EOR CMP CPX CPY BIT (R190 to R203). -/

namespace Sys2Proof.Machine

/-- ADC (R194). -/
def addOp (o : Operand) (s : State) : Out :=
  .next (((o.note s.mw s).putAlu s.mw (s.adcResult (o.value s.mw s))).advance o.len)

/-- SBC (R195, R196). -/
def subOp (o : Operand) (s : State) : Out :=
  .next (((o.note s.mw s).putAlu s.mw (s.sbcResult (o.value s.mw s))).advance o.len)

/-- AND, ORA, EOR (R197 to R199): a bitwise operation on `Am` and the operand; N and Z. -/
def logicOp (f : Word → Word → Word) (o : Operand) (s : State) : Out :=
  let r := s.mw.trunc (f s.am (o.value s.mw s))
  .next ((((o.note s.mw s).writeA s.mw r).setNZ s.mw r).advance o.len)

/-- CMP, CPX, CPY (R201 to R203): a register against the operand at a width; N, Z, C. -/
def compareOp (w : Width) (reg : Word) (o : Operand) (s : State) : Out :=
  .next (((o.note w s).setP (s.p.compare w reg (o.value w s))).advance o.len)

/-- BIT on memory (R200): N, V, Z. -/
def bitMem (m : Mode) (s : State) : Out :=
  .next (((m.noteData s.mw.bytes s).setP (s.p.bitTest s.mw s.am (s.memRead (m.ea s) s.mw.bytes))).advance m.len)

/-- BIT immediate (R200): Z only. -/
def bitImmediate (imm : Imm) (s : State) : Out :=
  let o := Operand.imm imm
  .next ((s.setP (s.p.bitTestImm s.mw s.am (o.value s.mw s))).advance o.len)

/-- ADC `(d,x)` (R194, R142). -/
def execAdcDirXInd (off : Byte) (s : State) : Out := addOp (.mem (.dirXInd off)) s

/-- ADC `d,s` (R194, R154). -/
def execAdcStk (off : Byte) (s : State) : Out := addOp (.mem (.stk off)) s

/-- ADC `d` (R194, R136). -/
def execAdcDir (off : Byte) (s : State) : Out := addOp (.mem (.dir off)) s

/-- ADC `[d]` (R194, R151). -/
def execAdcDirLong (off : Byte) (s : State) : Out := addOp (.mem (.dirLong off)) s

/-- ADC `#` (R194, R133). -/
def execAdcImm (imm : Imm) (s : State) : Out := addOp (.imm imm) s

/-- ADC `a` (R194, R134). -/
def execAdcAbs (addr : Half) (s : State) : Out := addOp (.mem (.abs addr)) s

/-- ADC `al` (R194, R135). -/
def execAdcLong (addr : BitVec 24) (s : State) : Out := addOp (.mem (.long addr)) s

/-- ADC `(d),y` (R194, R139). -/
def execAdcDirIndY (off : Byte) (s : State) : Out := addOp (.mem (.dirIndY off)) s

/-- ADC `(d)` (R194, R150). -/
def execAdcDirInd (off : Byte) (s : State) : Out := addOp (.mem (.dirInd off)) s

/-- ADC `(d,s),y` (R194, R155). -/
def execAdcStkIndY (off : Byte) (s : State) : Out := addOp (.mem (.stkIndY off)) s

/-- ADC `d,x` (R194, R143). -/
def execAdcDirX (off : Byte) (s : State) : Out := addOp (.mem (.dirX off)) s

/-- ADC `[d],y` (R194, R141). -/
def execAdcDirLongY (off : Byte) (s : State) : Out := addOp (.mem (.dirLongY off)) s

/-- ADC `a,y` (R194, R146). -/
def execAdcAbsY (addr : Half) (s : State) : Out := addOp (.mem (.absY addr)) s

/-- ADC `a,x` (R194, R144). -/
def execAdcAbsX (addr : Half) (s : State) : Out := addOp (.mem (.absX addr)) s

/-- ADC `al,x` (R194, R145). -/
def execAdcLongX (addr : BitVec 24) (s : State) : Out := addOp (.mem (.longX addr)) s

/-- SBC `(d,x)` (R195, R142). -/
def execSbcDirXInd (off : Byte) (s : State) : Out := subOp (.mem (.dirXInd off)) s

/-- SBC `d,s` (R195, R154). -/
def execSbcStk (off : Byte) (s : State) : Out := subOp (.mem (.stk off)) s

/-- SBC `d` (R195, R136). -/
def execSbcDir (off : Byte) (s : State) : Out := subOp (.mem (.dir off)) s

/-- SBC `[d]` (R195, R151). -/
def execSbcDirLong (off : Byte) (s : State) : Out := subOp (.mem (.dirLong off)) s

/-- SBC `#` (R195, R133). -/
def execSbcImm (imm : Imm) (s : State) : Out := subOp (.imm imm) s

/-- SBC `a` (R195, R134). -/
def execSbcAbs (addr : Half) (s : State) : Out := subOp (.mem (.abs addr)) s

/-- SBC `al` (R195, R135). -/
def execSbcLong (addr : BitVec 24) (s : State) : Out := subOp (.mem (.long addr)) s

/-- SBC `(d),y` (R195, R139). -/
def execSbcDirIndY (off : Byte) (s : State) : Out := subOp (.mem (.dirIndY off)) s

/-- SBC `(d)` (R195, R150). -/
def execSbcDirInd (off : Byte) (s : State) : Out := subOp (.mem (.dirInd off)) s

/-- SBC `(d,s),y` (R195, R155). -/
def execSbcStkIndY (off : Byte) (s : State) : Out := subOp (.mem (.stkIndY off)) s

/-- SBC `d,x` (R195, R143). -/
def execSbcDirX (off : Byte) (s : State) : Out := subOp (.mem (.dirX off)) s

/-- SBC `[d],y` (R195, R141). -/
def execSbcDirLongY (off : Byte) (s : State) : Out := subOp (.mem (.dirLongY off)) s

/-- SBC `a,y` (R195, R146). -/
def execSbcAbsY (addr : Half) (s : State) : Out := subOp (.mem (.absY addr)) s

/-- SBC `a,x` (R195, R144). -/
def execSbcAbsX (addr : Half) (s : State) : Out := subOp (.mem (.absX addr)) s

/-- SBC `al,x` (R195, R145). -/
def execSbcLongX (addr : BitVec 24) (s : State) : Out := subOp (.mem (.longX addr)) s

/-- AND `(d,x)` (R197, R142). -/
def execAndDirXInd (off : Byte) (s : State) : Out := logicOp (· &&& ·) (.mem (.dirXInd off)) s

/-- AND `d,s` (R197, R154). -/
def execAndStk (off : Byte) (s : State) : Out := logicOp (· &&& ·) (.mem (.stk off)) s

/-- AND `d` (R197, R136). -/
def execAndDir (off : Byte) (s : State) : Out := logicOp (· &&& ·) (.mem (.dir off)) s

/-- AND `[d]` (R197, R151). -/
def execAndDirLong (off : Byte) (s : State) : Out := logicOp (· &&& ·) (.mem (.dirLong off)) s

/-- AND `#` (R197, R133). -/
def execAndImm (imm : Imm) (s : State) : Out := logicOp (· &&& ·) (.imm imm) s

/-- AND `a` (R197, R134). -/
def execAndAbs (addr : Half) (s : State) : Out := logicOp (· &&& ·) (.mem (.abs addr)) s

/-- AND `al` (R197, R135). -/
def execAndLong (addr : BitVec 24) (s : State) : Out := logicOp (· &&& ·) (.mem (.long addr)) s

/-- AND `(d),y` (R197, R139). -/
def execAndDirIndY (off : Byte) (s : State) : Out := logicOp (· &&& ·) (.mem (.dirIndY off)) s

/-- AND `(d)` (R197, R150). -/
def execAndDirInd (off : Byte) (s : State) : Out := logicOp (· &&& ·) (.mem (.dirInd off)) s

/-- AND `(d,s),y` (R197, R155). -/
def execAndStkIndY (off : Byte) (s : State) : Out := logicOp (· &&& ·) (.mem (.stkIndY off)) s

/-- AND `d,x` (R197, R143). -/
def execAndDirX (off : Byte) (s : State) : Out := logicOp (· &&& ·) (.mem (.dirX off)) s

/-- AND `[d],y` (R197, R141). -/
def execAndDirLongY (off : Byte) (s : State) : Out := logicOp (· &&& ·) (.mem (.dirLongY off)) s

/-- AND `a,y` (R197, R146). -/
def execAndAbsY (addr : Half) (s : State) : Out := logicOp (· &&& ·) (.mem (.absY addr)) s

/-- AND `a,x` (R197, R144). -/
def execAndAbsX (addr : Half) (s : State) : Out := logicOp (· &&& ·) (.mem (.absX addr)) s

/-- AND `al,x` (R197, R145). -/
def execAndLongX (addr : BitVec 24) (s : State) : Out := logicOp (· &&& ·) (.mem (.longX addr)) s

/-- ORA `(d,x)` (R198, R142). -/
def execOraDirXInd (off : Byte) (s : State) : Out := logicOp (· ||| ·) (.mem (.dirXInd off)) s

/-- ORA `d,s` (R198, R154). -/
def execOraStk (off : Byte) (s : State) : Out := logicOp (· ||| ·) (.mem (.stk off)) s

/-- ORA `d` (R198, R136). -/
def execOraDir (off : Byte) (s : State) : Out := logicOp (· ||| ·) (.mem (.dir off)) s

/-- ORA `[d]` (R198, R151). -/
def execOraDirLong (off : Byte) (s : State) : Out := logicOp (· ||| ·) (.mem (.dirLong off)) s

/-- ORA `#` (R198, R133). -/
def execOraImm (imm : Imm) (s : State) : Out := logicOp (· ||| ·) (.imm imm) s

/-- ORA `a` (R198, R134). -/
def execOraAbs (addr : Half) (s : State) : Out := logicOp (· ||| ·) (.mem (.abs addr)) s

/-- ORA `al` (R198, R135). -/
def execOraLong (addr : BitVec 24) (s : State) : Out := logicOp (· ||| ·) (.mem (.long addr)) s

/-- ORA `(d),y` (R198, R139). -/
def execOraDirIndY (off : Byte) (s : State) : Out := logicOp (· ||| ·) (.mem (.dirIndY off)) s

/-- ORA `(d)` (R198, R150). -/
def execOraDirInd (off : Byte) (s : State) : Out := logicOp (· ||| ·) (.mem (.dirInd off)) s

/-- ORA `(d,s),y` (R198, R155). -/
def execOraStkIndY (off : Byte) (s : State) : Out := logicOp (· ||| ·) (.mem (.stkIndY off)) s

/-- ORA `d,x` (R198, R143). -/
def execOraDirX (off : Byte) (s : State) : Out := logicOp (· ||| ·) (.mem (.dirX off)) s

/-- ORA `[d],y` (R198, R141). -/
def execOraDirLongY (off : Byte) (s : State) : Out := logicOp (· ||| ·) (.mem (.dirLongY off)) s

/-- ORA `a,y` (R198, R146). -/
def execOraAbsY (addr : Half) (s : State) : Out := logicOp (· ||| ·) (.mem (.absY addr)) s

/-- ORA `a,x` (R198, R144). -/
def execOraAbsX (addr : Half) (s : State) : Out := logicOp (· ||| ·) (.mem (.absX addr)) s

/-- ORA `al,x` (R198, R145). -/
def execOraLongX (addr : BitVec 24) (s : State) : Out := logicOp (· ||| ·) (.mem (.longX addr)) s

/-- EOR `(d,x)` (R199, R142). -/
def execEorDirXInd (off : Byte) (s : State) : Out := logicOp (· ^^^ ·) (.mem (.dirXInd off)) s

/-- EOR `d,s` (R199, R154). -/
def execEorStk (off : Byte) (s : State) : Out := logicOp (· ^^^ ·) (.mem (.stk off)) s

/-- EOR `d` (R199, R136). -/
def execEorDir (off : Byte) (s : State) : Out := logicOp (· ^^^ ·) (.mem (.dir off)) s

/-- EOR `[d]` (R199, R151). -/
def execEorDirLong (off : Byte) (s : State) : Out := logicOp (· ^^^ ·) (.mem (.dirLong off)) s

/-- EOR `#` (R199, R133). -/
def execEorImm (imm : Imm) (s : State) : Out := logicOp (· ^^^ ·) (.imm imm) s

/-- EOR `a` (R199, R134). -/
def execEorAbs (addr : Half) (s : State) : Out := logicOp (· ^^^ ·) (.mem (.abs addr)) s

/-- EOR `al` (R199, R135). -/
def execEorLong (addr : BitVec 24) (s : State) : Out := logicOp (· ^^^ ·) (.mem (.long addr)) s

/-- EOR `(d),y` (R199, R139). -/
def execEorDirIndY (off : Byte) (s : State) : Out := logicOp (· ^^^ ·) (.mem (.dirIndY off)) s

/-- EOR `(d)` (R199, R150). -/
def execEorDirInd (off : Byte) (s : State) : Out := logicOp (· ^^^ ·) (.mem (.dirInd off)) s

/-- EOR `(d,s),y` (R199, R155). -/
def execEorStkIndY (off : Byte) (s : State) : Out := logicOp (· ^^^ ·) (.mem (.stkIndY off)) s

/-- EOR `d,x` (R199, R143). -/
def execEorDirX (off : Byte) (s : State) : Out := logicOp (· ^^^ ·) (.mem (.dirX off)) s

/-- EOR `[d],y` (R199, R141). -/
def execEorDirLongY (off : Byte) (s : State) : Out := logicOp (· ^^^ ·) (.mem (.dirLongY off)) s

/-- EOR `a,y` (R199, R146). -/
def execEorAbsY (addr : Half) (s : State) : Out := logicOp (· ^^^ ·) (.mem (.absY addr)) s

/-- EOR `a,x` (R199, R144). -/
def execEorAbsX (addr : Half) (s : State) : Out := logicOp (· ^^^ ·) (.mem (.absX addr)) s

/-- EOR `al,x` (R199, R145). -/
def execEorLongX (addr : BitVec 24) (s : State) : Out := logicOp (· ^^^ ·) (.mem (.longX addr)) s

/-- CMP `(d,x)` (R201, R142). -/
def execCmpDirXInd (off : Byte) (s : State) : Out := compareOp s.mw s.am (.mem (.dirXInd off)) s

/-- CMP `d,s` (R201, R154). -/
def execCmpStk (off : Byte) (s : State) : Out := compareOp s.mw s.am (.mem (.stk off)) s

/-- CMP `d` (R201, R136). -/
def execCmpDir (off : Byte) (s : State) : Out := compareOp s.mw s.am (.mem (.dir off)) s

/-- CMP `[d]` (R201, R151). -/
def execCmpDirLong (off : Byte) (s : State) : Out := compareOp s.mw s.am (.mem (.dirLong off)) s

/-- CMP `#` (R201, R133). -/
def execCmpImm (imm : Imm) (s : State) : Out := compareOp s.mw s.am (.imm imm) s

/-- CMP `a` (R201, R134). -/
def execCmpAbs (addr : Half) (s : State) : Out := compareOp s.mw s.am (.mem (.abs addr)) s

/-- CMP `al` (R201, R135). -/
def execCmpLong (addr : BitVec 24) (s : State) : Out := compareOp s.mw s.am (.mem (.long addr)) s

/-- CMP `(d),y` (R201, R139). -/
def execCmpDirIndY (off : Byte) (s : State) : Out := compareOp s.mw s.am (.mem (.dirIndY off)) s

/-- CMP `(d)` (R201, R150). -/
def execCmpDirInd (off : Byte) (s : State) : Out := compareOp s.mw s.am (.mem (.dirInd off)) s

/-- CMP `(d,s),y` (R201, R155). -/
def execCmpStkIndY (off : Byte) (s : State) : Out := compareOp s.mw s.am (.mem (.stkIndY off)) s

/-- CMP `d,x` (R201, R143). -/
def execCmpDirX (off : Byte) (s : State) : Out := compareOp s.mw s.am (.mem (.dirX off)) s

/-- CMP `[d],y` (R201, R141). -/
def execCmpDirLongY (off : Byte) (s : State) : Out := compareOp s.mw s.am (.mem (.dirLongY off)) s

/-- CMP `a,y` (R201, R146). -/
def execCmpAbsY (addr : Half) (s : State) : Out := compareOp s.mw s.am (.mem (.absY addr)) s

/-- CMP `a,x` (R201, R144). -/
def execCmpAbsX (addr : Half) (s : State) : Out := compareOp s.mw s.am (.mem (.absX addr)) s

/-- CMP `al,x` (R201, R145). -/
def execCmpLongX (addr : BitVec 24) (s : State) : Out := compareOp s.mw s.am (.mem (.longX addr)) s

/-- CPX `#` (R202, R133). -/
def execCpxImm (imm : Imm) (s : State) : Out := compareOp s.xw s.ix (.imm imm) s

/-- CPX `d` (R202, R136). -/
def execCpxDir (off : Byte) (s : State) : Out := compareOp s.xw s.ix (.mem (.dir off)) s

/-- CPX `a` (R202, R134). -/
def execCpxAbs (addr : Half) (s : State) : Out := compareOp s.xw s.ix (.mem (.abs addr)) s

/-- CPY `#` (R203, R133). -/
def execCpyImm (imm : Imm) (s : State) : Out := compareOp s.xw s.iy (.imm imm) s

/-- CPY `d` (R203, R136). -/
def execCpyDir (off : Byte) (s : State) : Out := compareOp s.xw s.iy (.mem (.dir off)) s

/-- CPY `a` (R203, R134). -/
def execCpyAbs (addr : Half) (s : State) : Out := compareOp s.xw s.iy (.mem (.abs addr)) s

/-- BIT `d` (R200, R136). -/
def execBitDir (off : Byte) (s : State) : Out := bitMem (.dir off) s

/-- BIT `a` (R200, R134). -/
def execBitAbs (addr : Half) (s : State) : Out := bitMem (.abs addr) s

/-- BIT `d,x` (R200, R143). -/
def execBitDirX (off : Byte) (s : State) : Out := bitMem (.dirX off) s

/-- BIT `a,x` (R200, R144). -/
def execBitAbsX (addr : Half) (s : State) : Out := bitMem (.absX addr) s

/-- BIT `#` (R200, R133). -/
def execBitImm (imm : Imm) (s : State) : Out := bitImmediate imm s

end Sys2Proof.Machine
end

