-- ==== Sys2Proof/Machine/BlockMove.lean ====
section
/-! DEFINITION. Block moves: MVN MVP (R330 to R339), one byte a step. -/

namespace Sys2Proof.Machine

/-- The source address of a step (R333, R335). -/
def moveSource (b : BlockBanks) (s : State) : EA :=
  match b with
  | .native => ⟨s.ix, .lin⟩
  | .banks _ src => ⟨bankAddr src (lowHalf s.ix), .lin⟩

/-- The destination address of a step (R333, R335). -/
def moveDest (b : BlockBanks) (s : State) : EA :=
  match b with
  | .native => ⟨s.iy, .lin⟩
  | .banks dst _ => ⟨bankAddr dst (lowHalf s.iy), .lin⟩

/-- `DBR <- dstbnk`, outside native mode (R331). -/
def moveBank (b : BlockBanks) (s : State) : State :=
  match b with
  | .native => s
  | .banks dst _ => s.setDbr dst

/-- The length of the instruction (R103 (b)). -/
def moveLen (b : BlockBanks) : Nat :=
  match b with
  | .native => 1
  | .banks _ _ => 3

/-- The count after a step from the count before it (R338). -/
def moveCount (f : MvFinalC) (c : Half) : Half :=
  match f with
  | .ffff => c - 1
  | .zero => if c = 0 then 0 else c - 1

/-- One byte of a block move (R332, R333): the byte is read, then written; X and Y move by `d`; the count goes down;
PC stays at the opcode until the byte moved with count 0. -/
def moveStep (d : Word) (b : BlockBanks) (s : State) : Out :=
  let v := s.memRead (moveSource b s) 1
  let t := ((moveBank b s).noteReads .dataRead (moveSource b s) 1).memWrite (moveDest b s) 1 v
  let u := (t.writeX s.xw (s.ix + d)).writeY s.xw (s.iy + d)
  let w := u.writeA .w16 (zextHalf (moveCount s.cfg.mvFinalC (lowHalf s.a)))
  .next (if lowHalf s.a = 0 then w.advance (moveLen b) else w)

/-- MVN (R333). -/
def execMvn (banks : BlockBanks) (s : State) : Out := moveStep 1 banks s

/-- MVP (R334). -/
def execMvp (banks : BlockBanks) (s : State) : Out := moveStep (-1) banks s

end Sys2Proof.Machine
end

