-- ==== Sys2Proof/Machine/Control.lean ====
section
/-! DEFINITION. Branches, jumps, calls and returns (R280 to R302). -/

namespace Sys2Proof.Machine

/-- A short branch (R281). -/
def branch (cond : Bool) (off : Byte) (s : State) : Out :=
  .next (s.setPc (if cond then s.pc + 2 + sextByte off else s.pc + 2))

/-- BCC `r` (R282, R147). -/
def execBcc (off : Byte) (s : State) : Out := branch (!s.p.c) off s

/-- BCS `r` (R283, R147). -/
def execBcs (off : Byte) (s : State) : Out := branch s.p.c off s

/-- BEQ `r` (R284, R147). -/
def execBeq (off : Byte) (s : State) : Out := branch s.p.z off s

/-- BNE `r` (R285, R147). -/
def execBne (off : Byte) (s : State) : Out := branch (!s.p.z) off s

/-- BMI `r` (R286, R147). -/
def execBmi (off : Byte) (s : State) : Out := branch s.p.n off s

/-- BPL `r` (R287, R147). -/
def execBpl (off : Byte) (s : State) : Out := branch (!s.p.n) off s

/-- BVC `r` (R288, R147). -/
def execBvc (off : Byte) (s : State) : Out := branch (!s.p.v) off s

/-- BVS `r` (R289, R147). -/
def execBvs (off : Byte) (s : State) : Out := branch s.p.v off s

/-- BRA `r` (R290, R147). -/
def execBra (off : Byte) (s : State) : Out := branch true off s

/-- BRL `rl` (R291, R148). -/
def execBrl (off : Half) (s : State) : Out := .next (s.setPc (s.pc + 3 + off))

/-- JMP `a` (R292, R134). -/
def execJmpAbs (addr : Half) (s : State) : Out := .next (s.setPc addr)

/-- JMP `al` (R293, R135). -/
def execJmpLong (addr : BitVec 24) (s : State) : Out := .next ((s.setPc (longOff addr)).setPbr (longBank addr))

/-- JMP `(a)` (R294, R149). -/
def execJmpAbsInd (addr : Half) (s : State) : Out :=
  let p := bank0Pointer addr
  .next ((s.noteReads .pointerRead p 2).setPc (lowHalf (s.memRead p 2)))

/-- JMP `(a,x)` (R295, R152). -/
def execJmpAbsXInd (addr : Half) (s : State) : Out :=
  let p := s.progPointer addr
  .next ((s.noteReads .pointerRead p 2).setPc (lowHalf (s.memRead p 2)))

/-- JML `(a)` (R296, R149). -/
def execJml (addr : Half) (s : State) : Out :=
  let p := bank0Pointer addr
  let t := s.memRead p 3
  .next (((s.noteReads .pointerRead p 3).setPc (lowHalf t)).setPbr (byteOf t 2))

/-- JSR `a` (R297, R134). -/
def execJsrAbs (addr : Half) (s : State) : Out := .next ((s.pushN .wrapping (zextHalf (s.pc + 2)) 2).setPc addr)

/-- JSR `(a,x)` (R298, R152). -/
def execJsrAbsXInd (addr : Half) (s : State) : Out :=
  let t := s.pushN .plain (zextHalf (s.pc + 2)) 2
  let u := t.noteFetch 2
  let p := u.progPointer (joinBytes (refetch s t 2 (halfHi addr)) (halfLo addr))
  .next (((u.noteReads .pointerRead p 2).setPc (lowHalf (u.memRead p 2))).forceSH)

/-- JSL `al` (R299, R135). -/
def execJsl (addr : BitVec 24) (s : State) : Out :=
  let t := s.push8 .plain s.pbr
  let bank := refetch s t 3 (longBank addr)
  let u := (t.noteFetch 3).pushN .plain (zextHalf (s.pc + 3)) 2
  .next (((u.setPc (longOff addr)).setPbr bank).forceSH)

/-- RTS (R300). -/
def execRts (s : State) : Out :=
  let q := s.pullN .wrapping 2
  .next (q.2.setPc (lowHalf q.1 + 1))

/-- RTL (R301). -/
def execRtl (s : State) : Out :=
  let q := s.pullN .plain 3
  .next (((q.2.setPc (lowHalf q.1 + 1)).setPbr (byteOf q.1 2)).forceSH)

end Sys2Proof.Machine
end

