-- ==== Sys2Proof/Machine/LoadStore.lean ====
section
/-! DEFINITION. Loads and stores: LDA LDX LDY STA STX STY STZ (R170 to R178). -/

namespace Sys2Proof.Machine

/-- LDA (R171): the accumulator at its width, N and Z. -/
def loadA (o : Operand) (s : State) : Out :=
  let v := o.value s.mw s
  .next ((((o.note s.mw s).writeA s.mw v).setNZ s.mw v).advance o.len)

/-- LDX (R172). -/
def loadX (o : Operand) (s : State) : Out :=
  let v := o.value s.xw s
  .next ((((o.note s.xw s).writeX s.xw v).setNZ s.xw v).advance o.len)

/-- LDY (R173). -/
def loadY (o : Operand) (s : State) : Out :=
  let v := o.value s.xw s
  .next ((((o.note s.xw s).writeY s.xw v).setNZ s.xw v).advance o.len)

/-- The stores (R174 to R177): the low bytes of `v` at a width, byte 0 first; no flags. -/
def store (w : Width) (v : Word) (m : Mode) (s : State) : Out :=
  .next (((m.notePointer s).memWrite (m.ea s) w.bytes v).advance m.len)

/-- LDA `(d,x)` (R171, R142). -/
def execLdaDirXInd (off : Byte) (s : State) : Out := loadA (.mem (.dirXInd off)) s

/-- LDA `d,s` (R171, R154). -/
def execLdaStk (off : Byte) (s : State) : Out := loadA (.mem (.stk off)) s

/-- LDA `d` (R171, R136). -/
def execLdaDir (off : Byte) (s : State) : Out := loadA (.mem (.dir off)) s

/-- LDA `[d]` (R171, R151). -/
def execLdaDirLong (off : Byte) (s : State) : Out := loadA (.mem (.dirLong off)) s

/-- LDA `#` (R171, R133). -/
def execLdaImm (imm : Imm) (s : State) : Out := loadA (.imm imm) s

/-- LDA `a` (R171, R134). -/
def execLdaAbs (addr : Half) (s : State) : Out := loadA (.mem (.abs addr)) s

/-- LDA `al` (R171, R135). -/
def execLdaLong (addr : BitVec 24) (s : State) : Out := loadA (.mem (.long addr)) s

/-- LDA `(d),y` (R171, R139). -/
def execLdaDirIndY (off : Byte) (s : State) : Out := loadA (.mem (.dirIndY off)) s

/-- LDA `(d)` (R171, R150). -/
def execLdaDirInd (off : Byte) (s : State) : Out := loadA (.mem (.dirInd off)) s

/-- LDA `(d,s),y` (R171, R155). -/
def execLdaStkIndY (off : Byte) (s : State) : Out := loadA (.mem (.stkIndY off)) s

/-- LDA `d,x` (R171, R143). -/
def execLdaDirX (off : Byte) (s : State) : Out := loadA (.mem (.dirX off)) s

/-- LDA `[d],y` (R171, R141). -/
def execLdaDirLongY (off : Byte) (s : State) : Out := loadA (.mem (.dirLongY off)) s

/-- LDA `a,y` (R171, R146). -/
def execLdaAbsY (addr : Half) (s : State) : Out := loadA (.mem (.absY addr)) s

/-- LDA `a,x` (R171, R144). -/
def execLdaAbsX (addr : Half) (s : State) : Out := loadA (.mem (.absX addr)) s

/-- LDA `al,x` (R171, R145). -/
def execLdaLongX (addr : BitVec 24) (s : State) : Out := loadA (.mem (.longX addr)) s

/-- LDX `#` (R172, R133). -/
def execLdxImm (imm : Imm) (s : State) : Out := loadX (.imm imm) s

/-- LDX `d` (R172, R136). -/
def execLdxDir (off : Byte) (s : State) : Out := loadX (.mem (.dir off)) s

/-- LDX `a` (R172, R134). -/
def execLdxAbs (addr : Half) (s : State) : Out := loadX (.mem (.abs addr)) s

/-- LDX `d,y` (R172, R143). -/
def execLdxDirY (off : Byte) (s : State) : Out := loadX (.mem (.dirY off)) s

/-- LDX `a,y` (R172, R146). -/
def execLdxAbsY (addr : Half) (s : State) : Out := loadX (.mem (.absY addr)) s

/-- LDY `#` (R173, R133). -/
def execLdyImm (imm : Imm) (s : State) : Out := loadY (.imm imm) s

/-- LDY `d` (R173, R136). -/
def execLdyDir (off : Byte) (s : State) : Out := loadY (.mem (.dir off)) s

/-- LDY `a` (R173, R134). -/
def execLdyAbs (addr : Half) (s : State) : Out := loadY (.mem (.abs addr)) s

/-- LDY `d,x` (R173, R143). -/
def execLdyDirX (off : Byte) (s : State) : Out := loadY (.mem (.dirX off)) s

/-- LDY `a,x` (R173, R144). -/
def execLdyAbsX (addr : Half) (s : State) : Out := loadY (.mem (.absX addr)) s

/-- STA `(d,x)` (R174, R142). -/
def execStaDirXInd (off : Byte) (s : State) : Out := store s.mw s.am (.dirXInd off) s

/-- STA `d,s` (R174, R154). -/
def execStaStk (off : Byte) (s : State) : Out := store s.mw s.am (.stk off) s

/-- STA `d` (R174, R136). -/
def execStaDir (off : Byte) (s : State) : Out := store s.mw s.am (.dir off) s

/-- STA `[d]` (R174, R151). -/
def execStaDirLong (off : Byte) (s : State) : Out := store s.mw s.am (.dirLong off) s

/-- STA `a` (R174, R134). -/
def execStaAbs (addr : Half) (s : State) : Out := store s.mw s.am (.abs addr) s

/-- STA `al` (R174, R135). -/
def execStaLong (addr : BitVec 24) (s : State) : Out := store s.mw s.am (.long addr) s

/-- STA `(d),y` (R174, R139). -/
def execStaDirIndY (off : Byte) (s : State) : Out := store s.mw s.am (.dirIndY off) s

/-- STA `(d)` (R174, R150). -/
def execStaDirInd (off : Byte) (s : State) : Out := store s.mw s.am (.dirInd off) s

/-- STA `(d,s),y` (R174, R155). -/
def execStaStkIndY (off : Byte) (s : State) : Out := store s.mw s.am (.stkIndY off) s

/-- STA `d,x` (R174, R143). -/
def execStaDirX (off : Byte) (s : State) : Out := store s.mw s.am (.dirX off) s

/-- STA `[d],y` (R174, R141). -/
def execStaDirLongY (off : Byte) (s : State) : Out := store s.mw s.am (.dirLongY off) s

/-- STA `a,y` (R174, R146). -/
def execStaAbsY (addr : Half) (s : State) : Out := store s.mw s.am (.absY addr) s

/-- STA `a,x` (R174, R144). -/
def execStaAbsX (addr : Half) (s : State) : Out := store s.mw s.am (.absX addr) s

/-- STA `al,x` (R174, R145). -/
def execStaLongX (addr : BitVec 24) (s : State) : Out := store s.mw s.am (.longX addr) s

/-- STX `d` (R175, R136). -/
def execStxDir (off : Byte) (s : State) : Out := store s.xw s.ix (.dir off) s

/-- STX `a` (R175, R134). -/
def execStxAbs (addr : Half) (s : State) : Out := store s.xw s.ix (.abs addr) s

/-- STX `d,y` (R175, R143). -/
def execStxDirY (off : Byte) (s : State) : Out := store s.xw s.ix (.dirY off) s

/-- STY `d` (R176, R136). -/
def execStyDir (off : Byte) (s : State) : Out := store s.xw s.iy (.dir off) s

/-- STY `a` (R176, R134). -/
def execStyAbs (addr : Half) (s : State) : Out := store s.xw s.iy (.abs addr) s

/-- STY `d,x` (R176, R143). -/
def execStyDirX (off : Byte) (s : State) : Out := store s.xw s.iy (.dirX off) s

/-- STZ `d` (R177, R136). -/
def execStzDir (off : Byte) (s : State) : Out := store s.mw 0 (.dir off) s

/-- STZ `d,x` (R177, R143). -/
def execStzDirX (off : Byte) (s : State) : Out := store s.mw 0 (.dirX off) s

/-- STZ `a` (R177, R134). -/
def execStzAbs (addr : Half) (s : State) : Out := store s.mw 0 (.abs addr) s

/-- STZ `a,x` (R177, R144). -/
def execStzAbsX (addr : Half) (s : State) : Out := store s.mw 0 (.absX addr) s

end Sys2Proof.Machine
end

