-- ==== Sys2Proof/Machine/ModeOps.lean ====
section
/-! DEFINITION. Flag and mode instructions: CLC SEC CLD SED CLI SEI CLV REP SEP XCE XFE (R310 to R323). -/

namespace Sys2Proof.Machine

/-- A write of P followed by "PC advances" (R310). -/
def flagOp (p : Status) (s : State) : Out := .next ((s.setP p).advance 1)

/-- A write of P by REP or SEP (R318, R319): the byte `b` as P, but for M and Xf in `emu8`; then R320. -/
def maskOp (b : Byte) (s : State) : Out := .next (((s.writeP b).normalise s.xw).advance 2)

/-- CLC (R311). -/
def execClc (s : State) : Out := flagOp { s.p with c := false } s

/-- SEC (R312). -/
def execSec (s : State) : Out := flagOp { s.p with c := true } s

/-- CLD (R313). -/
def execCld (s : State) : Out := flagOp { s.p with d := false } s

/-- SED (R314). -/
def execSed (s : State) : Out := flagOp { s.p with d := true } s

/-- CLI (R315). -/
def execCli (s : State) : Out := flagOp { s.p with i := false } s

/-- SEI (R316). -/
def execSei (s : State) : Out := flagOp { s.p with i := true } s

/-- CLV (R317). -/
def execClv (s : State) : Out := flagOp { s.p with v := false } s

/-- REP `#` (R318, R133). -/
def execRep (mask : Byte) (s : State) : Out := maskOp (s.p.toByte &&& ~~~mask) s

/-- SEP `#` (R319, R133). -/
def execSep (mask : Byte) (s : State) : Out := maskOp (s.p.toByte ||| mask) s

/-- XCE (R321). -/
def execXce (s : State) : Out :=
  let t := (s.setP { s.p with c := s.e8 }).setModes s.p.c s.e16
  .next ((t.normalise s.xw).advance 1)

/-- XFE (R322). -/
def execXfe (s : State) : Out :=
  let t := (s.setP { s.p with c := s.e8, v := s.e16 }).setModes s.p.c s.p.v
  .next ((t.normalise s.xw).advance 1)

end Sys2Proof.Machine
end

