-- ==== Sys2Proof/Machine/Rmw.lean ====
section
/-! DEFINITION. Read-modify-write and counting: ASL LSR ROL ROR INC DEC TSB TRB INX INY DEX DEY (R204 to R216). -/

namespace Sys2Proof.Machine

/-- A read-modify-write instruction on memory (R204): the write-back is high byte first. -/
def rmwMem (f : Width → Word → Status → Word × Status) (m : Mode) (s : State) : Out :=
  let q := f s.mw (s.memRead (m.ea s) s.mw.bytes) s.p
  .next ((((m.noteData s.mw.bytes s).memWriteBack (m.ea s) s.mw.bytes q.1).setP q.2).advance m.len)

/-- A shift or count of the accumulator (R137, R204). -/
def rmwAcc (f : Width → Word → Status → Word × Status) (s : State) : Out :=
  let q := f s.mw s.am s.p
  .next (((s.writeA s.mw q.1).setP q.2).advance 1)

/-- A count of X (R211, R213). -/
def countX (f : Width → Word → Status → Word × Status) (s : State) : Out :=
  let q := f s.xw s.ix s.p
  .next (((s.writeX s.xw q.1).setP q.2).advance 1)

/-- A count of Y (R212, R214). -/
def countY (f : Width → Word → Status → Word × Status) (s : State) : Out :=
  let q := f s.xw s.iy s.p
  .next (((s.writeY s.xw q.1).setP q.2).advance 1)

/-- ASL `d` (R205, R136). -/
def execAslDir (off : Byte) (s : State) : Out := rmwMem aslOp (.dir off) s

/-- ASL `A` (R205, R137). -/
def execAslAcc (s : State) : Out := rmwAcc aslOp s

/-- ASL `a` (R205, R134). -/
def execAslAbs (addr : Half) (s : State) : Out := rmwMem aslOp (.abs addr) s

/-- ASL `d,x` (R205, R143). -/
def execAslDirX (off : Byte) (s : State) : Out := rmwMem aslOp (.dirX off) s

/-- ASL `a,x` (R205, R144). -/
def execAslAbsX (addr : Half) (s : State) : Out := rmwMem aslOp (.absX addr) s

/-- LSR `d` (R206, R136). -/
def execLsrDir (off : Byte) (s : State) : Out := rmwMem lsrOp (.dir off) s

/-- LSR `A` (R206, R137). -/
def execLsrAcc (s : State) : Out := rmwAcc lsrOp s

/-- LSR `a` (R206, R134). -/
def execLsrAbs (addr : Half) (s : State) : Out := rmwMem lsrOp (.abs addr) s

/-- LSR `d,x` (R206, R143). -/
def execLsrDirX (off : Byte) (s : State) : Out := rmwMem lsrOp (.dirX off) s

/-- LSR `a,x` (R206, R144). -/
def execLsrAbsX (addr : Half) (s : State) : Out := rmwMem lsrOp (.absX addr) s

/-- ROL `d` (R207, R136). -/
def execRolDir (off : Byte) (s : State) : Out := rmwMem rolOp (.dir off) s

/-- ROL `A` (R207, R137). -/
def execRolAcc (s : State) : Out := rmwAcc rolOp s

/-- ROL `a` (R207, R134). -/
def execRolAbs (addr : Half) (s : State) : Out := rmwMem rolOp (.abs addr) s

/-- ROL `d,x` (R207, R143). -/
def execRolDirX (off : Byte) (s : State) : Out := rmwMem rolOp (.dirX off) s

/-- ROL `a,x` (R207, R144). -/
def execRolAbsX (addr : Half) (s : State) : Out := rmwMem rolOp (.absX addr) s

/-- ROR `d` (R208, R136). -/
def execRorDir (off : Byte) (s : State) : Out := rmwMem rorOp (.dir off) s

/-- ROR `A` (R208, R137). -/
def execRorAcc (s : State) : Out := rmwAcc rorOp s

/-- ROR `a` (R208, R134). -/
def execRorAbs (addr : Half) (s : State) : Out := rmwMem rorOp (.abs addr) s

/-- ROR `d,x` (R208, R143). -/
def execRorDirX (off : Byte) (s : State) : Out := rmwMem rorOp (.dirX off) s

/-- ROR `a,x` (R208, R144). -/
def execRorAbsX (addr : Half) (s : State) : Out := rmwMem rorOp (.absX addr) s

/-- INC `A` (R209, R137). -/
def execIncAcc (s : State) : Out := rmwAcc incOp s

/-- INC `d` (R209, R136). -/
def execIncDir (off : Byte) (s : State) : Out := rmwMem incOp (.dir off) s

/-- INC `a` (R209, R134). -/
def execIncAbs (addr : Half) (s : State) : Out := rmwMem incOp (.abs addr) s

/-- INC `d,x` (R209, R143). -/
def execIncDirX (off : Byte) (s : State) : Out := rmwMem incOp (.dirX off) s

/-- INC `a,x` (R209, R144). -/
def execIncAbsX (addr : Half) (s : State) : Out := rmwMem incOp (.absX addr) s

/-- DEC `A` (R210, R137). -/
def execDecAcc (s : State) : Out := rmwAcc decOp s

/-- DEC `d` (R210, R136). -/
def execDecDir (off : Byte) (s : State) : Out := rmwMem decOp (.dir off) s

/-- DEC `a` (R210, R134). -/
def execDecAbs (addr : Half) (s : State) : Out := rmwMem decOp (.abs addr) s

/-- DEC `d,x` (R210, R143). -/
def execDecDirX (off : Byte) (s : State) : Out := rmwMem decOp (.dirX off) s

/-- DEC `a,x` (R210, R144). -/
def execDecAbsX (addr : Half) (s : State) : Out := rmwMem decOp (.absX addr) s

/-- TSB `d` (R215, R136). -/
def execTsbDir (off : Byte) (s : State) : Out := rmwMem (tsbOp s.am) (.dir off) s

/-- TSB `a` (R215, R134). -/
def execTsbAbs (addr : Half) (s : State) : Out := rmwMem (tsbOp s.am) (.abs addr) s

/-- TRB `d` (R216, R136). -/
def execTrbDir (off : Byte) (s : State) : Out := rmwMem (trbOp s.am) (.dir off) s

/-- TRB `a` (R216, R134). -/
def execTrbAbs (addr : Half) (s : State) : Out := rmwMem (trbOp s.am) (.abs addr) s

/-- INX (R211). -/
def execInx (s : State) : Out := countX incOp s

/-- INY (R212). -/
def execIny (s : State) : Out := countY incOp s

/-- DEX (R213). -/
def execDex (s : State) : Out := countX decOp s

/-- DEY (R214). -/
def execDey (s : State) : Out := countY decOp s

end Sys2Proof.Machine
end

