-- ==== Sys2Proof/Machine/Stack.lean ====
section
/-! DEFINITION. Pushes, pulls and push effective address: PHA PHX PHY PHP PHB PHD PHK PLA PLX PLY PLP PLB PLD PEA PEI PER
(R244 to R262). -/

namespace Sys2Proof.Machine

/-- A push of 16 bits by an instruction R83 lists: S runs as a plain number, then SH is restored (R250, R259 to
R261). -/
def pushWord (v : Half) (len : Nat) (s : State) : Out :=
  .next (((s.pushN .plain (zextHalf v) 2).forceSH).advance len)

/-- PHA (R245). -/
def execPha (s : State) : Out := .next ((s.pushN .wrapping s.am s.mw.bytes).advance 1)

/-- PHX (R246). -/
def execPhx (s : State) : Out := .next ((s.pushN .wrapping s.ix s.xw.bytes).advance 1)

/-- PHY (R247). -/
def execPhy (s : State) : Out := .next ((s.pushN .wrapping s.iy s.xw.bytes).advance 1)

/-- PHP (R248). -/
def execPhp (s : State) : Out := .next ((s.push8 .wrapping (s.pushedP true)).advance 1)

/-- PHB (R249). -/
def execPhb (s : State) : Out := .next ((s.push8 .wrapping s.dbr).advance 1)

/-- PHK (R251). -/
def execPhk (s : State) : Out := .next ((s.push8 .wrapping s.pbr).advance 1)

/-- PHD (R250). -/
def execPhd (s : State) : Out := pushWord s.dr 1 s

/-- PLA (R253). -/
def execPla (s : State) : Out :=
  let q := s.pullN .wrapping s.mw.bytes
  .next (((q.2.writeA s.mw q.1).setNZ s.mw q.1).advance 1)

/-- PLX (R254). -/
def execPlx (s : State) : Out :=
  let q := s.pullN .wrapping s.xw.bytes
  .next (((q.2.writeX s.xw q.1).setNZ s.xw q.1).advance 1)

/-- PLY (R255). -/
def execPly (s : State) : Out :=
  let q := s.pullN .wrapping s.xw.bytes
  .next (((q.2.writeY s.xw q.1).setNZ s.xw q.1).advance 1)

/-- PLP (R256). -/
def execPlp (s : State) : Out :=
  let q := s.pull8 .wrapping
  .next (((q.2.writeP q.1).normalise s.xw).advance 1)

/-- PLB (R257). -/
def execPlb (s : State) : Out :=
  let q := s.pull8 .wrapping
  .next (((q.2.setDbr q.1).setNZ .w8 (zextByte q.1)).advance 1)

/-- PLD (R258). -/
def execPld (s : State) : Out :=
  let q := s.pullN .plain 2
  .next ((((q.2.setDr (lowHalf q.1)).setNZ .w16 q.1).forceSH).advance 1)

/-- PEA (R259). -/
def execPea (addr : Half) (s : State) : Out := pushWord addr 3 s

/-- PEI (R260). -/
def execPei (off : Byte) (s : State) : Out :=
  pushWord (lowHalf (s.memRead (s.dpLinear off) 2)) 2 (s.noteReads .pointerRead (s.dpLinear off) 2)

/-- PER (R261). -/
def execPer (off : Half) (s : State) : Out := pushWord (s.pc + 3 + off) 3 s

end Sys2Proof.Machine
end

