-- ==== Sys2Proof/Machine/System.lean ====
section
/-! DEFINITION. System instructions: BRK COP RTI WAI STP NOP WDM (R340 to R347). -/

namespace Sys2Proof.Machine

/-- BRK (R340). -/
def execBrk (_sig : Byte) (s : State) : Out := .next (s.interrupt .brk (s.pc + 2) true)

/-- COP (R341). -/
def execCop (_sig : Byte) (s : State) : Out := .next (s.interrupt .cop (s.pc + 2) true)

/-- RTI (R342). -/
def execRti (s : State) : Out := .next s.returnFromInterrupt

/-- WAI (R343). -/
def execWai (s : State) : Out := .next ((s.advance 1).setRun .waiting)

/-- STP (R344). -/
def execStp (s : State) : Out := .next ((s.advance 1).setRun .stopped)

/-- NOP (R345). -/
def execNop (s : State) : Out := .next (s.advance 1)

/-- WDM (R346). -/
def execWdm (_skipped : Byte) (s : State) : Out := .next (s.advance 2)

end Sys2Proof.Machine
end

