-- ==== Sys2Proof/Machine/Transfer.lean ====
section
/-! DEFINITION. Register transfers: TAX TAY TXA TYA TXY TYX TCS TSC TCD TDC TXS TSX XBA (R230 to R243). -/

namespace Sys2Proof.Machine

/-- A transfer to A at a width (R230). -/
def transferA (w : Width) (v : Word) (s : State) : Out := .next (((s.writeA w v).setNZ w v).advance 1)

/-- A transfer to X at the index width (R230). -/
def transferX (v : Word) (s : State) : Out := .next (((s.writeX s.xw v).setNZ s.xw v).advance 1)

/-- A transfer to Y at the index width (R230). -/
def transferY (v : Word) (s : State) : Out := .next (((s.writeY s.xw v).setNZ s.xw v).advance 1)

/-- A transfer to S (R236, R241): in `emu8` SH is forced to `$01`; no flags. -/
def transferS (v : Half) (s : State) : Out := .next ((s.setSp (s.wrapS v)).advance 1)

/-- TAX (R231). -/
def execTax (s : State) : Out := transferX s.a s

/-- TAY (R232). -/
def execTay (s : State) : Out := transferY s.a s

/-- TXA (R233). -/
def execTxa (s : State) : Out := transferA s.mw s.x s

/-- TYA (R234). -/
def execTya (s : State) : Out := transferA s.mw s.y s

/-- TXY (R235). -/
def execTxy (s : State) : Out := transferY s.x s

/-- TYX (R237). -/
def execTyx (s : State) : Out := transferX s.y s

/-- TSX (R238). -/
def execTsx (s : State) : Out := transferX (zextHalf s.sp) s

/-- TSC (R239). -/
def execTsc (s : State) : Out := transferA .w16 (zextHalf s.sp) s

/-- TDC (R242). -/
def execTdc (s : State) : Out := transferA .w16 (zextHalf s.dr) s

/-- TCS (R236). -/
def execTcs (s : State) : Out := transferS (lowHalf s.a) s

/-- TXS (R241). -/
def execTxs (s : State) : Out := transferS (lowHalf s.x) s

/-- TCD (R240). -/
def execTcd (s : State) : Out := .next (((s.setDr (lowHalf s.a)).setNZ .w16 s.a).advance 1)

/-- XBA (R243). -/
def execXba (s : State) : Out :=
  let v := zextHalf (joinBytes (byteOf s.a 0) (byteOf s.a 1))
  .next (((s.writeA .w16 v).setNZ .w8 v).advance 1)

end Sys2Proof.Machine
end

