-- ==== Sys2Proof/Machine/Boundary.lean ====
section
/-! DEFINITION. What happens at a step boundary: the environment's inputs (R360), the choice of the next step (R367),
the execution of one instruction with its fetches (R74), ABORT- (R378 to R381) and reset (R410, R414). `step` is
`boundary`. -/

namespace Sys2Proof.Machine

/-! ## A step whose memory writes are not settled -/

/-- The addresses at which two memories differ, each once. -/
def changedAddrs (old new : List Host.Cell) : List Nat :=
  (old.map (·.1) ++ (new.map (·.1)).filter fun a => !(old.map (·.1)).contains a).filter fun a =>
    Mem.read old a != Mem.read new a

/-- Give each listed address either its byte in `m` or its byte in `new`; the `k`-th choice is the `k`-th free bit of
`t`. -/
def mixBytes (t : State) (new : List Host.Cell) : List Nat → Nat → List Host.Cell → List Host.Cell
  | [], _, m => m
  | a :: rest, k, m => mixBytes t new rest (k + 1) (if t.freeBit k then Mem.write m a (Mem.read new a) else m)

/-- State `s`, but each byte of memory that the step from `s` to `t` has changed holds its old or its new value, an
unspecified choice for each (R378 (c), R414). -/
def unsettled (s t : State) : State :=
  (s.setMem (mixBytes t t.mem (changedAddrs s.mem t.mem) 0 s.mem)).setFreeIdx
    (t.freeIdx + (changedAddrs s.mem t.mem).length)

/-! ## One instruction -/

/-- ABORT- is asserted: only under the precise abort model (R360, R378). -/
def abortAsserted (inp : Inputs) (s : State) : Bool := inp.abort && decide (s.cfg.abortModel = .precise)

/-- The instruction at PBR:PC (R367 (7)): its bytes are fetched and it runs. -/
def runInstr (s : State) : Out := exec s.fetchInstr (s.noteFetches (fetchedFirst s.fetchInstr))

/-- An aborted instruction (R378): no register, flag, mode bit or latch changes but `abort_pending`, which is set; the
bytes it would have written are unsettled; its bus accesses took place. -/
def abortedInstr (s : State) : Out :=
  match runInstr s with
  | .next t => .next (((unsettled s t).setBus t.bus).setAbort true)
  | .fault f => .fault f
  | .refused r => .refused r

/-- The instruction at PBR:PC, aborted if ABORT- is asserted. -/
def instrStep (inp : Inputs) (s : State) : Out := if abortAsserted inp s then abortedInstr s else runInstr s

/-! ## The choice of the next step -/

/-- A hardware interrupt sequence (R370, R371): the return address is PC. The environment may not abort it (R380). -/
def hardwareInterrupt (src : IntSource) (inp : Inputs) (s : State) : Out :=
  if abortAsserted inp s then .refused .abortedSequence else .next (s.interrupt src s.pc false)

/-- An idle step of a waiting processor; ABORT- moves PC back to the WAI (R381). -/
def idleWaiting (inp : Inputs) (s : State) : Out :=
  .next (if abortAsserted inp s then s.setPc (s.pc - 1) else s)

/-- Cases (2) to (7) of R367, in priority order. -/
def chooseStep (inp : Inputs) (s : State) : Out :=
  if s.run = .stopped then .next s
  else if s.abortPending then hardwareInterrupt .abort inp (s.setAbort false)
  else if s.nmiPending then hardwareInterrupt .nmi inp (s.setNmi false)
  else if inp.irq ∧ s.p.i = false then hardwareInterrupt .irq inp s
  else if s.run = .waiting then
    if inp.irq then instrStep inp (s.setRun .running) else idleWaiting inp s
  else instrStep inp s

/-- The NMI- edge latch takes the edge, but not while the processor is stopped (R360, R366, R391). -/
def latchNmi (inp : Inputs) (s : State) : State :=
  if s.run = .stopped then s else s.setNmi (s.nmiPending || inp.nmiEdge)

/-- The inputs at this boundary (R360); after the end of the list, none is active. -/
def currentInputs (s : State) : Inputs := s.inputs.headD .quiet

/-- The state at a boundary once the inputs are folded into the latches (R360), the bus record empty. -/
def atBoundary (s : State) : State := latchNmi (currentInputs s) ((s.setInputs s.inputs.tail).setBus [])

/-- A reset in the middle of the step that would have started here (R414): what that step would have written is
unsettled, and reset gives the registers. Those that `RESET_DRAW` = `preserve` keeps are kept as they were before the
abandoned step: the model's choice (log 25). The inputs other than RES- are ignored (R412). -/
def resetMidStep (s : State) : Out :=
  match chooseStep { currentInputs s with abort := false } (atBoundary s) with
  | .next t => .next (unsettled (atBoundary s) t).resetSequence
  | .fault f => .fault f
  | .refused r => .refused r

/-- One step (R19): the inputs are read and the next step is chosen by R367. -/
def boundary (s : State) : Out :=
  match (currentInputs s).res with
  | .inactive => chooseStep (currentInputs s) (atBoundary s)
  | .atBoundary => .next (atBoundary s).resetSequence
  | .midStep => resetMidStep s

/-! ## Placing an instruction from outside -/

/-- Store byte `i` of the instruction stream at PBR:PC, from outside the machine. -/
def placeByte (i : Nat) (v : Byte) (s : State) : State :=
  s.setMem (Mem.write s.mem (s.phys (s.fetchAddr i)) v)

/-- Store the five bytes of a table word at PBR:PC and let the next step be an instruction: the processor runs, and
no interrupt is pending or coming. -/
def placeWord (nbits w : Nat) (s : State) : State :=
  let t := (((s.setRun .running).setNmi false).setAbort false).setInputs []
  placeByte 4 (tableByte nbits w 4) (placeByte 3 (tableByte nbits w 3) (placeByte 2 (tableByte nbits w 2)
    (placeByte 1 (tableByte nbits w 1) (placeByte 0 (tableByte nbits w 0) t))))

end Sys2Proof.Machine
end

