-- ==== Sys2Proof/Machine/Step.lean ====
section
/-! DEFINITION. The step function and the place of the next instruction. -/

namespace Sys2Proof.Machine

/-- One step of the machine (R19, R367). -/
def step (s : State) : Host.Outcome State Fault Refusal := boundary s

/-- The state with a table word stored where the next step fetches its instruction, PBR:PC (log 7). -/
def State.withFetchWord (s : State) (nbits w : Nat) : State := placeWord nbits w s

end Sys2Proof.Machine
end

