-- ==== Sys2Proof/Machine/Forms.lean ====
section
/-! DEFINITION. Which addressing modes an instruction has: for each mnemonic that has several, the instruction of the
opcode table in a given mode, or none where the matrix R102 has no such cell. Statements range over these. -/

namespace Sys2Proof.Machine

/-- LDA with an operand (R171). -/
def ldaForm : Operand → Option Instr
  | .imm v => some (.ldaImm v)
  | .mem (.dir a) => some (.ldaDir a)
  | .mem (.dirX a) => some (.ldaDirX a)
  | .mem (.dirY _) => none
  | .mem (.dirInd a) => some (.ldaDirInd a)
  | .mem (.dirXInd a) => some (.ldaDirXInd a)
  | .mem (.dirIndY a) => some (.ldaDirIndY a)
  | .mem (.dirLong a) => some (.ldaDirLong a)
  | .mem (.dirLongY a) => some (.ldaDirLongY a)
  | .mem (.stk a) => some (.ldaStk a)
  | .mem (.stkIndY a) => some (.ldaStkIndY a)
  | .mem (.abs a) => some (.ldaAbs a)
  | .mem (.absX a) => some (.ldaAbsX a)
  | .mem (.absY a) => some (.ldaAbsY a)
  | .mem (.long a) => some (.ldaLong a)
  | .mem (.longX a) => some (.ldaLongX a)

/-- LDX with an operand (R172). -/
def ldxForm : Operand → Option Instr
  | .imm v => some (.ldxImm v)
  | .mem (.dir a) => some (.ldxDir a)
  | .mem (.dirX _) => none
  | .mem (.dirY a) => some (.ldxDirY a)
  | .mem (.dirInd _) => none
  | .mem (.dirXInd _) => none
  | .mem (.dirIndY _) => none
  | .mem (.dirLong _) => none
  | .mem (.dirLongY _) => none
  | .mem (.stk _) => none
  | .mem (.stkIndY _) => none
  | .mem (.abs a) => some (.ldxAbs a)
  | .mem (.absX _) => none
  | .mem (.absY a) => some (.ldxAbsY a)
  | .mem (.long _) => none
  | .mem (.longX _) => none

/-- LDY with an operand (R173). -/
def ldyForm : Operand → Option Instr
  | .imm v => some (.ldyImm v)
  | .mem (.dir a) => some (.ldyDir a)
  | .mem (.dirX a) => some (.ldyDirX a)
  | .mem (.dirY _) => none
  | .mem (.dirInd _) => none
  | .mem (.dirXInd _) => none
  | .mem (.dirIndY _) => none
  | .mem (.dirLong _) => none
  | .mem (.dirLongY _) => none
  | .mem (.stk _) => none
  | .mem (.stkIndY _) => none
  | .mem (.abs a) => some (.ldyAbs a)
  | .mem (.absX a) => some (.ldyAbsX a)
  | .mem (.absY _) => none
  | .mem (.long _) => none
  | .mem (.longX _) => none

/-- ADC with an operand (R194). -/
def adcForm : Operand → Option Instr
  | .imm v => some (.adcImm v)
  | .mem (.dir a) => some (.adcDir a)
  | .mem (.dirX a) => some (.adcDirX a)
  | .mem (.dirY _) => none
  | .mem (.dirInd a) => some (.adcDirInd a)
  | .mem (.dirXInd a) => some (.adcDirXInd a)
  | .mem (.dirIndY a) => some (.adcDirIndY a)
  | .mem (.dirLong a) => some (.adcDirLong a)
  | .mem (.dirLongY a) => some (.adcDirLongY a)
  | .mem (.stk a) => some (.adcStk a)
  | .mem (.stkIndY a) => some (.adcStkIndY a)
  | .mem (.abs a) => some (.adcAbs a)
  | .mem (.absX a) => some (.adcAbsX a)
  | .mem (.absY a) => some (.adcAbsY a)
  | .mem (.long a) => some (.adcLong a)
  | .mem (.longX a) => some (.adcLongX a)

/-- SBC with an operand (R195). -/
def sbcForm : Operand → Option Instr
  | .imm v => some (.sbcImm v)
  | .mem (.dir a) => some (.sbcDir a)
  | .mem (.dirX a) => some (.sbcDirX a)
  | .mem (.dirY _) => none
  | .mem (.dirInd a) => some (.sbcDirInd a)
  | .mem (.dirXInd a) => some (.sbcDirXInd a)
  | .mem (.dirIndY a) => some (.sbcDirIndY a)
  | .mem (.dirLong a) => some (.sbcDirLong a)
  | .mem (.dirLongY a) => some (.sbcDirLongY a)
  | .mem (.stk a) => some (.sbcStk a)
  | .mem (.stkIndY a) => some (.sbcStkIndY a)
  | .mem (.abs a) => some (.sbcAbs a)
  | .mem (.absX a) => some (.sbcAbsX a)
  | .mem (.absY a) => some (.sbcAbsY a)
  | .mem (.long a) => some (.sbcLong a)
  | .mem (.longX a) => some (.sbcLongX a)

/-- AND with an operand (R197). -/
def andForm : Operand → Option Instr
  | .imm v => some (.andImm v)
  | .mem (.dir a) => some (.andDir a)
  | .mem (.dirX a) => some (.andDirX a)
  | .mem (.dirY _) => none
  | .mem (.dirInd a) => some (.andDirInd a)
  | .mem (.dirXInd a) => some (.andDirXInd a)
  | .mem (.dirIndY a) => some (.andDirIndY a)
  | .mem (.dirLong a) => some (.andDirLong a)
  | .mem (.dirLongY a) => some (.andDirLongY a)
  | .mem (.stk a) => some (.andStk a)
  | .mem (.stkIndY a) => some (.andStkIndY a)
  | .mem (.abs a) => some (.andAbs a)
  | .mem (.absX a) => some (.andAbsX a)
  | .mem (.absY a) => some (.andAbsY a)
  | .mem (.long a) => some (.andLong a)
  | .mem (.longX a) => some (.andLongX a)

/-- ORA with an operand (R198). -/
def oraForm : Operand → Option Instr
  | .imm v => some (.oraImm v)
  | .mem (.dir a) => some (.oraDir a)
  | .mem (.dirX a) => some (.oraDirX a)
  | .mem (.dirY _) => none
  | .mem (.dirInd a) => some (.oraDirInd a)
  | .mem (.dirXInd a) => some (.oraDirXInd a)
  | .mem (.dirIndY a) => some (.oraDirIndY a)
  | .mem (.dirLong a) => some (.oraDirLong a)
  | .mem (.dirLongY a) => some (.oraDirLongY a)
  | .mem (.stk a) => some (.oraStk a)
  | .mem (.stkIndY a) => some (.oraStkIndY a)
  | .mem (.abs a) => some (.oraAbs a)
  | .mem (.absX a) => some (.oraAbsX a)
  | .mem (.absY a) => some (.oraAbsY a)
  | .mem (.long a) => some (.oraLong a)
  | .mem (.longX a) => some (.oraLongX a)

/-- EOR with an operand (R199). -/
def eorForm : Operand → Option Instr
  | .imm v => some (.eorImm v)
  | .mem (.dir a) => some (.eorDir a)
  | .mem (.dirX a) => some (.eorDirX a)
  | .mem (.dirY _) => none
  | .mem (.dirInd a) => some (.eorDirInd a)
  | .mem (.dirXInd a) => some (.eorDirXInd a)
  | .mem (.dirIndY a) => some (.eorDirIndY a)
  | .mem (.dirLong a) => some (.eorDirLong a)
  | .mem (.dirLongY a) => some (.eorDirLongY a)
  | .mem (.stk a) => some (.eorStk a)
  | .mem (.stkIndY a) => some (.eorStkIndY a)
  | .mem (.abs a) => some (.eorAbs a)
  | .mem (.absX a) => some (.eorAbsX a)
  | .mem (.absY a) => some (.eorAbsY a)
  | .mem (.long a) => some (.eorLong a)
  | .mem (.longX a) => some (.eorLongX a)

/-- CMP with an operand (R201). -/
def cmpForm : Operand → Option Instr
  | .imm v => some (.cmpImm v)
  | .mem (.dir a) => some (.cmpDir a)
  | .mem (.dirX a) => some (.cmpDirX a)
  | .mem (.dirY _) => none
  | .mem (.dirInd a) => some (.cmpDirInd a)
  | .mem (.dirXInd a) => some (.cmpDirXInd a)
  | .mem (.dirIndY a) => some (.cmpDirIndY a)
  | .mem (.dirLong a) => some (.cmpDirLong a)
  | .mem (.dirLongY a) => some (.cmpDirLongY a)
  | .mem (.stk a) => some (.cmpStk a)
  | .mem (.stkIndY a) => some (.cmpStkIndY a)
  | .mem (.abs a) => some (.cmpAbs a)
  | .mem (.absX a) => some (.cmpAbsX a)
  | .mem (.absY a) => some (.cmpAbsY a)
  | .mem (.long a) => some (.cmpLong a)
  | .mem (.longX a) => some (.cmpLongX a)

/-- CPX with an operand (R202). -/
def cpxForm : Operand → Option Instr
  | .imm v => some (.cpxImm v)
  | .mem (.dir a) => some (.cpxDir a)
  | .mem (.dirX _) => none
  | .mem (.dirY _) => none
  | .mem (.dirInd _) => none
  | .mem (.dirXInd _) => none
  | .mem (.dirIndY _) => none
  | .mem (.dirLong _) => none
  | .mem (.dirLongY _) => none
  | .mem (.stk _) => none
  | .mem (.stkIndY _) => none
  | .mem (.abs a) => some (.cpxAbs a)
  | .mem (.absX _) => none
  | .mem (.absY _) => none
  | .mem (.long _) => none
  | .mem (.longX _) => none

/-- CPY with an operand (R203). -/
def cpyForm : Operand → Option Instr
  | .imm v => some (.cpyImm v)
  | .mem (.dir a) => some (.cpyDir a)
  | .mem (.dirX _) => none
  | .mem (.dirY _) => none
  | .mem (.dirInd _) => none
  | .mem (.dirXInd _) => none
  | .mem (.dirIndY _) => none
  | .mem (.dirLong _) => none
  | .mem (.dirLongY _) => none
  | .mem (.stk _) => none
  | .mem (.stkIndY _) => none
  | .mem (.abs a) => some (.cpyAbs a)
  | .mem (.absX _) => none
  | .mem (.absY _) => none
  | .mem (.long _) => none
  | .mem (.longX _) => none

/-- STA on memory (R174). -/
def staForm : Mode → Option Instr
  | .dir a => some (.staDir a)
  | .dirX a => some (.staDirX a)
  | .dirY _ => none
  | .dirInd a => some (.staDirInd a)
  | .dirXInd a => some (.staDirXInd a)
  | .dirIndY a => some (.staDirIndY a)
  | .dirLong a => some (.staDirLong a)
  | .dirLongY a => some (.staDirLongY a)
  | .stk a => some (.staStk a)
  | .stkIndY a => some (.staStkIndY a)
  | .abs a => some (.staAbs a)
  | .absX a => some (.staAbsX a)
  | .absY a => some (.staAbsY a)
  | .long a => some (.staLong a)
  | .longX a => some (.staLongX a)

/-- STX on memory (R175). -/
def stxForm : Mode → Option Instr
  | .dir a => some (.stxDir a)
  | .dirX _ => none
  | .dirY a => some (.stxDirY a)
  | .dirInd _ => none
  | .dirXInd _ => none
  | .dirIndY _ => none
  | .dirLong _ => none
  | .dirLongY _ => none
  | .stk _ => none
  | .stkIndY _ => none
  | .abs a => some (.stxAbs a)
  | .absX _ => none
  | .absY _ => none
  | .long _ => none
  | .longX _ => none

/-- STY on memory (R176). -/
def styForm : Mode → Option Instr
  | .dir a => some (.styDir a)
  | .dirX a => some (.styDirX a)
  | .dirY _ => none
  | .dirInd _ => none
  | .dirXInd _ => none
  | .dirIndY _ => none
  | .dirLong _ => none
  | .dirLongY _ => none
  | .stk _ => none
  | .stkIndY _ => none
  | .abs a => some (.styAbs a)
  | .absX _ => none
  | .absY _ => none
  | .long _ => none
  | .longX _ => none

/-- STZ on memory (R177). -/
def stzForm : Mode → Option Instr
  | .dir a => some (.stzDir a)
  | .dirX a => some (.stzDirX a)
  | .dirY _ => none
  | .dirInd _ => none
  | .dirXInd _ => none
  | .dirIndY _ => none
  | .dirLong _ => none
  | .dirLongY _ => none
  | .stk _ => none
  | .stkIndY _ => none
  | .abs a => some (.stzAbs a)
  | .absX a => some (.stzAbsX a)
  | .absY _ => none
  | .long _ => none
  | .longX _ => none

/-- BIT on memory (R200). -/
def bitForm : Mode → Option Instr
  | .dir a => some (.bitDir a)
  | .dirX a => some (.bitDirX a)
  | .dirY _ => none
  | .dirInd _ => none
  | .dirXInd _ => none
  | .dirIndY _ => none
  | .dirLong _ => none
  | .dirLongY _ => none
  | .stk _ => none
  | .stkIndY _ => none
  | .abs a => some (.bitAbs a)
  | .absX a => some (.bitAbsX a)
  | .absY _ => none
  | .long _ => none
  | .longX _ => none

/-- ASL on memory (R205). -/
def aslForm : Mode → Option Instr
  | .dir a => some (.aslDir a)
  | .dirX a => some (.aslDirX a)
  | .dirY _ => none
  | .dirInd _ => none
  | .dirXInd _ => none
  | .dirIndY _ => none
  | .dirLong _ => none
  | .dirLongY _ => none
  | .stk _ => none
  | .stkIndY _ => none
  | .abs a => some (.aslAbs a)
  | .absX a => some (.aslAbsX a)
  | .absY _ => none
  | .long _ => none
  | .longX _ => none

/-- LSR on memory (R206). -/
def lsrForm : Mode → Option Instr
  | .dir a => some (.lsrDir a)
  | .dirX a => some (.lsrDirX a)
  | .dirY _ => none
  | .dirInd _ => none
  | .dirXInd _ => none
  | .dirIndY _ => none
  | .dirLong _ => none
  | .dirLongY _ => none
  | .stk _ => none
  | .stkIndY _ => none
  | .abs a => some (.lsrAbs a)
  | .absX a => some (.lsrAbsX a)
  | .absY _ => none
  | .long _ => none
  | .longX _ => none

/-- ROL on memory (R207). -/
def rolForm : Mode → Option Instr
  | .dir a => some (.rolDir a)
  | .dirX a => some (.rolDirX a)
  | .dirY _ => none
  | .dirInd _ => none
  | .dirXInd _ => none
  | .dirIndY _ => none
  | .dirLong _ => none
  | .dirLongY _ => none
  | .stk _ => none
  | .stkIndY _ => none
  | .abs a => some (.rolAbs a)
  | .absX a => some (.rolAbsX a)
  | .absY _ => none
  | .long _ => none
  | .longX _ => none

/-- ROR on memory (R208). -/
def rorForm : Mode → Option Instr
  | .dir a => some (.rorDir a)
  | .dirX a => some (.rorDirX a)
  | .dirY _ => none
  | .dirInd _ => none
  | .dirXInd _ => none
  | .dirIndY _ => none
  | .dirLong _ => none
  | .dirLongY _ => none
  | .stk _ => none
  | .stkIndY _ => none
  | .abs a => some (.rorAbs a)
  | .absX a => some (.rorAbsX a)
  | .absY _ => none
  | .long _ => none
  | .longX _ => none

/-- INC on memory (R209). -/
def incForm : Mode → Option Instr
  | .dir a => some (.incDir a)
  | .dirX a => some (.incDirX a)
  | .dirY _ => none
  | .dirInd _ => none
  | .dirXInd _ => none
  | .dirIndY _ => none
  | .dirLong _ => none
  | .dirLongY _ => none
  | .stk _ => none
  | .stkIndY _ => none
  | .abs a => some (.incAbs a)
  | .absX a => some (.incAbsX a)
  | .absY _ => none
  | .long _ => none
  | .longX _ => none

/-- DEC on memory (R210). -/
def decForm : Mode → Option Instr
  | .dir a => some (.decDir a)
  | .dirX a => some (.decDirX a)
  | .dirY _ => none
  | .dirInd _ => none
  | .dirXInd _ => none
  | .dirIndY _ => none
  | .dirLong _ => none
  | .dirLongY _ => none
  | .stk _ => none
  | .stkIndY _ => none
  | .abs a => some (.decAbs a)
  | .absX a => some (.decAbsX a)
  | .absY _ => none
  | .long _ => none
  | .longX _ => none

/-- TSB on memory (R215). -/
def tsbForm : Mode → Option Instr
  | .dir a => some (.tsbDir a)
  | .dirX _ => none
  | .dirY _ => none
  | .dirInd _ => none
  | .dirXInd _ => none
  | .dirIndY _ => none
  | .dirLong _ => none
  | .dirLongY _ => none
  | .stk _ => none
  | .stkIndY _ => none
  | .abs a => some (.tsbAbs a)
  | .absX _ => none
  | .absY _ => none
  | .long _ => none
  | .longX _ => none

/-- TRB on memory (R216). -/
def trbForm : Mode → Option Instr
  | .dir a => some (.trbDir a)
  | .dirX _ => none
  | .dirY _ => none
  | .dirInd _ => none
  | .dirXInd _ => none
  | .dirIndY _ => none
  | .dirLong _ => none
  | .dirLongY _ => none
  | .stk _ => none
  | .stkIndY _ => none
  | .abs a => some (.trbAbs a)
  | .absX _ => none
  | .absY _ => none
  | .long _ => none
  | .longX _ => none

end Sys2Proof.Machine
end

