-- ==== Sys2Proof/Machine/Asm.lean ====
section
/-! DEFINITION. The assembler syntax of section 7 (R111 to R124): the text of a line, the operand formats, and the
instruction that a mnemonic and an operand stand for. It is a recommendation to assembler writers and no part of the
machine (R111): nothing that steps uses it. Labels are given with their values; directives are not defined (R111). -/

namespace Sys2Proof.Machine

/-- The 93 mnemonics (R110). -/
inductive Mnemonic where
  | adc
  | and
  | asl
  | bcc
  | bcs
  | beq
  | bit
  | bmi
  | bne
  | bpl
  | bra
  | brk
  | brl
  | bvc
  | bvs
  | clc
  | cld
  | cli
  | clv
  | cmp
  | cop
  | cpx
  | cpy
  | dec
  | dex
  | dey
  | eor
  | inc
  | inx
  | iny
  | jml
  | jmp
  | jsl
  | jsr
  | lda
  | ldx
  | ldy
  | lsr
  | mvn
  | mvp
  | nop
  | ora
  | pea
  | pei
  | per
  | pha
  | phb
  | phd
  | phk
  | php
  | phx
  | phy
  | pla
  | plb
  | pld
  | plp
  | plx
  | ply
  | rep
  | rol
  | ror
  | rti
  | rtl
  | rts
  | sbc
  | sec
  | sed
  | sei
  | sep
  | sta
  | stp
  | stx
  | sty
  | stz
  | tax
  | tay
  | tcd
  | tcs
  | tdc
  | trb
  | tsb
  | tsc
  | tsx
  | txa
  | txs
  | txy
  | tya
  | tyx
  | wai
  | wdm
  | xba
  | xce
  | xfe
deriving DecidableEq, Repr


/-- The letters of the mnemonics ADC to DEC (R110). -/
def mnemonicsAdc : List (List Char × Mnemonic) :=
  [(['A', 'D', 'C'], .adc), (['A', 'N', 'D'], .and), (['A', 'S', 'L'], .asl), (['B', 'C', 'C'], .bcc),
    (['B', 'C', 'S'], .bcs), (['B', 'E', 'Q'], .beq), (['B', 'I', 'T'], .bit), (['B', 'M', 'I'], .bmi),
    (['B', 'N', 'E'], .bne), (['B', 'P', 'L'], .bpl), (['B', 'R', 'A'], .bra), (['B', 'R', 'K'], .brk),
    (['B', 'R', 'L'], .brl), (['B', 'V', 'C'], .bvc), (['B', 'V', 'S'], .bvs), (['C', 'L', 'C'], .clc),
    (['C', 'L', 'D'], .cld), (['C', 'L', 'I'], .cli), (['C', 'L', 'V'], .clv), (['C', 'M', 'P'], .cmp),
    (['C', 'O', 'P'], .cop), (['C', 'P', 'X'], .cpx), (['C', 'P', 'Y'], .cpy), (['D', 'E', 'C'], .dec)]

/-- The letters of the mnemonics DEX to PHD (R110). -/
def mnemonicsDex : List (List Char × Mnemonic) :=
  [(['D', 'E', 'X'], .dex), (['D', 'E', 'Y'], .dey), (['E', 'O', 'R'], .eor), (['I', 'N', 'C'], .inc),
    (['I', 'N', 'X'], .inx), (['I', 'N', 'Y'], .iny), (['J', 'M', 'L'], .jml), (['J', 'M', 'P'], .jmp),
    (['J', 'S', 'L'], .jsl), (['J', 'S', 'R'], .jsr), (['L', 'D', 'A'], .lda), (['L', 'D', 'X'], .ldx),
    (['L', 'D', 'Y'], .ldy), (['L', 'S', 'R'], .lsr), (['M', 'V', 'N'], .mvn), (['M', 'V', 'P'], .mvp),
    (['N', 'O', 'P'], .nop), (['O', 'R', 'A'], .ora), (['P', 'E', 'A'], .pea), (['P', 'E', 'I'], .pei),
    (['P', 'E', 'R'], .per), (['P', 'H', 'A'], .pha), (['P', 'H', 'B'], .phb), (['P', 'H', 'D'], .phd)]

/-- The letters of the mnemonics PHK to STX (R110). -/
def mnemonicsPhk : List (List Char × Mnemonic) :=
  [(['P', 'H', 'K'], .phk), (['P', 'H', 'P'], .php), (['P', 'H', 'X'], .phx), (['P', 'H', 'Y'], .phy),
    (['P', 'L', 'A'], .pla), (['P', 'L', 'B'], .plb), (['P', 'L', 'D'], .pld), (['P', 'L', 'P'], .plp),
    (['P', 'L', 'X'], .plx), (['P', 'L', 'Y'], .ply), (['R', 'E', 'P'], .rep), (['R', 'O', 'L'], .rol),
    (['R', 'O', 'R'], .ror), (['R', 'T', 'I'], .rti), (['R', 'T', 'L'], .rtl), (['R', 'T', 'S'], .rts),
    (['S', 'B', 'C'], .sbc), (['S', 'E', 'C'], .sec), (['S', 'E', 'D'], .sed), (['S', 'E', 'I'], .sei),
    (['S', 'E', 'P'], .sep), (['S', 'T', 'A'], .sta), (['S', 'T', 'P'], .stp), (['S', 'T', 'X'], .stx)]

/-- The letters of the mnemonics STY to XFE (R110). -/
def mnemonicsSty : List (List Char × Mnemonic) :=
  [(['S', 'T', 'Y'], .sty), (['S', 'T', 'Z'], .stz), (['T', 'A', 'X'], .tax), (['T', 'A', 'Y'], .tay),
    (['T', 'C', 'D'], .tcd), (['T', 'C', 'S'], .tcs), (['T', 'D', 'C'], .tdc), (['T', 'R', 'B'], .trb),
    (['T', 'S', 'B'], .tsb), (['T', 'S', 'C'], .tsc), (['T', 'S', 'X'], .tsx), (['T', 'X', 'A'], .txa),
    (['T', 'X', 'S'], .txs), (['T', 'X', 'Y'], .txy), (['T', 'Y', 'A'], .tya), (['T', 'Y', 'X'], .tyx),
    (['W', 'A', 'I'], .wai), (['W', 'D', 'M'], .wdm), (['X', 'B', 'A'], .xba), (['X', 'C', 'E'], .xce),
    (['X', 'F', 'E'], .xfe)]

/-- The letters of each mnemonic (R110). -/
def mnemonicTable : List (List Char × Mnemonic) := mnemonicsAdc ++ mnemonicsDex ++ mnemonicsPhk ++ mnemonicsSty

/-- The alternate mnemonics that stand for another with the same operand (R114); JSL and JML are mnemonics of their
own, DEA and INA are in `accAliasTable`, and CMA stands for CMP, which has no form on the accumulator alone (log 23). -/
def aliasTable : List (List Char × Mnemonic) :=
  [(['B', 'L', 'T'], .bcc), (['B', 'G', 'E'], .bcs), (['T', 'A', 'D'], .tcd), (['T', 'A', 'S'], .tcs),
    (['T', 'D', 'A'], .tdc), (['T', 'S', 'A'], .tsc), (['S', 'W', 'A'], .xba), (['C', 'M', 'A'], .cmp)]

/-- The alternate mnemonics that stand for another on the accumulator, with no operand of their own (R114). -/
def accAliasTable : List (List Char × Mnemonic) :=
  [(['D', 'E', 'A'], .dec), (['I', 'N', 'A'], .inc)]

/-- Mnemonics that never take an operand: all their instructions are implied or stack instructions without operand bytes
of their own, or WDM (R117). -/
def Mnemonic.bare : Mnemonic → Bool
  | .adc => false
  | .and => false
  | .asl => false
  | .bcc => false
  | .bcs => false
  | .beq => false
  | .bit => false
  | .bmi => false
  | .bne => false
  | .bpl => false
  | .bra => false
  | .brk => false
  | .brl => false
  | .bvc => false
  | .bvs => false
  | .clc => true
  | .cld => true
  | .cli => true
  | .clv => true
  | .cmp => false
  | .cop => false
  | .cpx => false
  | .cpy => false
  | .dec => false
  | .dex => true
  | .dey => true
  | .eor => false
  | .inc => false
  | .inx => true
  | .iny => true
  | .jml => false
  | .jmp => false
  | .jsl => false
  | .jsr => false
  | .lda => false
  | .ldx => false
  | .ldy => false
  | .lsr => false
  | .mvn => false
  | .mvp => false
  | .nop => true
  | .ora => false
  | .pea => false
  | .pei => false
  | .per => false
  | .pha => true
  | .phb => true
  | .phd => true
  | .phk => true
  | .php => true
  | .phx => true
  | .phy => true
  | .pla => true
  | .plb => true
  | .pld => true
  | .plp => true
  | .plx => true
  | .ply => true
  | .rep => false
  | .rol => false
  | .ror => false
  | .rti => true
  | .rtl => true
  | .rts => true
  | .sbc => false
  | .sec => true
  | .sed => true
  | .sei => true
  | .sep => false
  | .sta => false
  | .stp => true
  | .stx => false
  | .sty => false
  | .stz => false
  | .tax => true
  | .tay => true
  | .tcd => true
  | .tcs => true
  | .tdc => true
  | .trb => false
  | .tsb => false
  | .tsc => true
  | .tsx => true
  | .txa => true
  | .txs => true
  | .txy => true
  | .tya => true
  | .tyx => true
  | .wai => true
  | .wdm => true
  | .xba => true
  | .xce => true
  | .xfe => true

/-! ## Operands -/

/-- The size classes of an address (R116): below `$100`, below `$10000`, above. -/
inductive AddrClass where
  | d
  | a
  | al
deriving DecidableEq, Repr

/-- A value of the operand field: the number (R115), whether every label in it is known when the instruction is
assembled (R116, `EXT`), and the class that a prefix forces on it (R119). -/
structure AsmValue where
  value : Word
  located : Bool
  force : Option AddrClass
deriving DecidableEq, Repr

/-- The class of a value: the forced one (R119); else two bytes for a value not yet known, else by its size (R116). -/
def AsmValue.size (v : AsmValue) : AddrClass :=
  match v.force with
  | some k => k
  | none =>
    if !v.located then .a
    else if v.value.toNat < 0x100 then .d
    else if v.value.toNat < 0x10000 then .a
    else .al

/-- The value cut to its class, without error (R119). -/
def AsmValue.cut (v : AsmValue) : Word :=
  match v.size with
  | .d => v.value &&& 0xFF
  | .a => v.value &&& 0xFFFF
  | .al => v.value &&& 0xFFFFFF

/-- The value as a direct-page offset. -/
def AsmValue.byte (v : AsmValue) : Byte := v.cut.setWidth 8

/-- The value as a 16-bit address. -/
def AsmValue.half (v : AsmValue) : Half := v.cut.setWidth 16

/-- The value as a 24-bit address. -/
def AsmValue.long (v : AsmValue) : BitVec 24 := v.cut.setWidth 24

/-- The byte selection operators of an immediate (R123): from bit 0, bit 8 or bit 16 up. -/
inductive ByteSel where
  | low
  | second
  | third
deriving DecidableEq, Repr

/-- The first bit taken (R123). -/
def ByteSel.shift : ByteSel → Nat
  | .low => 0
  | .second => 8
  | .third => 16

/-- The operand formats (R117). -/
inductive AsmOperand where
  | none
  | acc
  | imm (sel : ByteSel) (v : AsmValue)
  | addr (v : AsmValue)
  | addrX (v : AsmValue)
  | addrY (v : AsmValue)
  | ind (v : AsmValue)
  | indX (v : AsmValue)
  | indY (v : AsmValue)
  | bracket (v : AsmValue)
  | bracketY (v : AsmValue)
  | stk (v : AsmValue)
  | stkIndY (v : AsmValue)
  | two (src dst : AsmValue)
deriving DecidableEq, Repr

/-- The immediate of a width: as many bytes of the value, from the selected one up, as the width in force has (R118,
R123, R124). -/
def immOf (w : Width) (sel : ByteSel) (v : AsmValue) : Imm :=
  match w with
  | .w8 => .b1 ((v.value >>> sel.shift).setWidth 8)
  | .w16 => .b2 ((v.value >>> sel.shift).setWidth 16)
  | .w32 => .b4 (v.value >>> sel.shift)

/-- The shortest of the forms an instruction has that holds an address of the class; an address shorter than the form
is zero-extended (R119). -/
def AddrClass.pick (d a al : Option Instr) : AddrClass → Option Instr
  | .d => d <|> a <|> al
  | .a => a <|> al
  | .al => al

/-- An instruction on memory (R117, R120): the mode the operand format and the size of its value say, if the
instruction has it. -/
def onMemory (f : Mode → Option Instr) (o : AsmOperand) : Option Instr :=
  match o with
  | .none => none
  | .acc => none
  | .imm _ _ => none
  | .addr v => v.size.pick (f (.dir v.byte)) (f (.abs v.half)) (f (.long v.long))
  | .addrX v => v.size.pick (f (.dirX v.byte)) (f (.absX v.half)) (f (.longX v.long))
  | .addrY v => v.size.pick (f (.dirY v.byte)) (f (.absY v.half)) none
  | .ind v => v.size.pick (f (.dirInd v.byte)) none none
  | .indX v => v.size.pick (f (.dirXInd v.byte)) none none
  | .indY v => v.size.pick (f (.dirIndY v.byte)) none none
  | .bracket v => v.size.pick (f (.dirLong v.byte)) none none
  | .bracketY v => v.size.pick (f (.dirLongY v.byte)) none none
  | .stk v => v.size.pick (f (.stk v.byte)) none none
  | .stkIndY v => v.size.pick (f (.stkIndY v.byte)) none none
  | .two _ _ => none

/-- An instruction with an immediate form as wide as `w` (R118). -/
def withImm (w : Width) (f : Operand → Option Instr) (o : AsmOperand) : Option Instr :=
  match o with
  | .imm sel v => f (.imm (immOf w sel v))
  | _ => onMemory (fun m => f (.mem m)) o

/-- BIT (R117). -/
def bitOperand (w : Width) (o : AsmOperand) : Option Instr :=
  match o with
  | .imm sel v => some (.bitImm (immOf w sel v))
  | _ => onMemory bitForm o

/-- A shift or count: the accumulator written `A`, or memory (R117). -/
def accOrMemory (i : Instr) (f : Mode → Option Instr) (o : AsmOperand) : Option Instr :=
  match o with
  | .acc => some i
  | _ => onMemory f o

/-- An instruction with no operand (R117). -/
def noOperand (i : Instr) (o : AsmOperand) : Option Instr :=
  match o with
  | .none => some i
  | _ => none

/-- A short branch at `pc`: the programmer writes the target, and its displacement from the next instruction must fit
8 bits (R116, R105). A bank byte in the target is dropped: the model's choice (log 23). -/
def shortBranch (pc : Half) (f : Byte → Instr) (o : AsmOperand) : Option Instr :=
  match o with
  | .addr v =>
    let disp := v.half - (pc + 2)
    if sextByte (halfLo disp) = disp then some (f (halfLo disp)) else none
  | _ => none

/-- BRL and PER at `pc`: the programmer writes the target, and the displacement from the next instruction is 16 bits
wide (R116, R117, R148, R105). A bank byte in the target is dropped: the model's choice (log 23). -/
def relativeLong (pc : Half) (f : Half → Instr) (o : AsmOperand) : Option Instr :=
  match o with
  | .addr v => some (f (v.half - (pc + 3)))
  | _ => none

/-- JMP (R117, R121). -/
def jmpOperand (o : AsmOperand) : Option Instr :=
  match o with
  | .addr v => v.size.pick none (some (.jmpAbs v.half)) (some (.jmpLong v.long))
  | .ind v => v.size.pick none (some (.jmpAbsInd v.half)) none
  | .indX v => v.size.pick none (some (.jmpAbsXInd v.half)) none
  | .bracket v => v.size.pick none (some (.jml v.half)) none
  | _ => none

/-- The value with long addressing forced, where no prefix forces another: what JML and JSL do to their operand (R121).
A label not yet known then has three bytes (R116: two "unless told otherwise"; log 23). -/
def AsmValue.asLong (v : AsmValue) : AsmValue :=
  match v.force with
  | none => { v with force := some .al }
  | some _ => v

/-- JML: JMP with long addressing forced; `(v)` and, like JMP, `[v]` are the long indirect jump (R121, log 23). -/
def jmlOperand (o : AsmOperand) : Option Instr :=
  match o with
  | .addr v => some (.jmpLong v.asLong.long)
  | .ind v => v.size.pick none (some (.jml v.half)) none
  | .bracket v => v.size.pick none (some (.jml v.half)) none
  | _ => none

/-- JSR: JSL when its operand is a long absolute address (R117, R121). -/
def jsrOperand (o : AsmOperand) : Option Instr :=
  match o with
  | .addr v => v.size.pick none (some (.jsrAbs v.half)) (some (.jsl v.long))
  | .indX v => v.size.pick none (some (.jsrAbsXInd v.half)) none
  | _ => none

/-- JSL (R121). -/
def jslOperand (o : AsmOperand) : Option Instr :=
  match o with
  | .addr v => some (.jsl v.asLong.long)
  | _ => none

/-- A block move: source bank, then destination bank; outside native mode, since there is no syntax for the form
without operands (R122). -/
def blockMove (c : DecodeCtx) (f : BlockBanks → Instr) (o : AsmOperand) : Option Instr :=
  match o with
  | .two src dst => if c.native then none else some (f (.banks dst.byte src.byte))
  | _ => none

/-- REP and SEP: an immediate of one byte (R133, R318, R319). -/
def maskByte (f : Byte → Instr) (o : AsmOperand) : Option Instr :=
  match o with
  | .imm sel v => some (f ((v.value >>> sel.shift).setWidth 8))
  | _ => none

/-- PEA: immediate or absolute syntax for the 16 bits pushed, whatever the widths (R259). -/
def peaOperand (o : AsmOperand) : Option Instr :=
  match o with
  | .imm sel v => some (.pea ((v.value >>> sel.shift).setWidth 16))
  | .addr v => v.size.pick none (some (.pea v.half)) none
  | _ => none

/-- PEI: written as direct indirect (R260, R117, vector PE2; log 23). -/
def peiOperand (o : AsmOperand) : Option Instr :=
  match o with
  | .ind v => v.size.pick (some (.pei v.byte)) none none
  | _ => none

/-- BRK and COP: their signature byte written as an immediate (vector SY4), or no operand, as stack addressing is
written, and then a signature that the spec leaves open (R106, R117; log 23). -/
def signatureOperand (f : Byte → Instr) (o : AsmOperand) : Option Instr :=
  match o with
  | .none => some (f Config.signatureByte)
  | .imm sel v => some (f ((v.value >>> sel.shift).setWidth 8))
  | _ => none

/-- The instruction that a mnemonic and an operand stand for at `pc`, with the widths in force (R113, R117, R118). -/
def assemble (c : DecodeCtx) (pc : Half) (m : Mnemonic) (o : AsmOperand) : Option Instr :=
  match m with
  | .adc => withImm c.mw adcForm o
  | .and => withImm c.mw andForm o
  | .asl => accOrMemory .aslAcc aslForm o
  | .bcc => shortBranch pc .bcc o
  | .bcs => shortBranch pc .bcs o
  | .beq => shortBranch pc .beq o
  | .bit => bitOperand c.mw o
  | .bmi => shortBranch pc .bmi o
  | .bne => shortBranch pc .bne o
  | .bpl => shortBranch pc .bpl o
  | .bra => shortBranch pc .bra o
  | .brk => signatureOperand .brk o
  | .brl => relativeLong pc .brl o
  | .bvc => shortBranch pc .bvc o
  | .bvs => shortBranch pc .bvs o
  | .clc => noOperand .clc o
  | .cld => noOperand .cld o
  | .cli => noOperand .cli o
  | .clv => noOperand .clv o
  | .cmp => withImm c.mw cmpForm o
  | .cop => signatureOperand .cop o
  | .cpx => withImm c.xw cpxForm o
  | .cpy => withImm c.xw cpyForm o
  | .dec => accOrMemory .decAcc decForm o
  | .dex => noOperand .dex o
  | .dey => noOperand .dey o
  | .eor => withImm c.mw eorForm o
  | .inc => accOrMemory .incAcc incForm o
  | .inx => noOperand .inx o
  | .iny => noOperand .iny o
  | .jml => jmlOperand o
  | .jmp => jmpOperand o
  | .jsl => jslOperand o
  | .jsr => jsrOperand o
  | .lda => withImm c.mw ldaForm o
  | .ldx => withImm c.xw ldxForm o
  | .ldy => withImm c.xw ldyForm o
  | .lsr => accOrMemory .lsrAcc lsrForm o
  | .mvn => blockMove c .mvn o
  | .mvp => blockMove c .mvp o
  | .nop => noOperand .nop o
  | .ora => withImm c.mw oraForm o
  | .pea => peaOperand o
  | .pei => peiOperand o
  | .per => relativeLong pc .per o
  | .pha => noOperand .pha o
  | .phb => noOperand .phb o
  | .phd => noOperand .phd o
  | .phk => noOperand .phk o
  | .php => noOperand .php o
  | .phx => noOperand .phx o
  | .phy => noOperand .phy o
  | .pla => noOperand .pla o
  | .plb => noOperand .plb o
  | .pld => noOperand .pld o
  | .plp => noOperand .plp o
  | .plx => noOperand .plx o
  | .ply => noOperand .ply o
  | .rep => maskByte .rep o
  | .rol => accOrMemory .rolAcc rolForm o
  | .ror => accOrMemory .rorAcc rorForm o
  | .rti => noOperand .rti o
  | .rtl => noOperand .rtl o
  | .rts => noOperand .rts o
  | .sbc => withImm c.mw sbcForm o
  | .sec => noOperand .sec o
  | .sed => noOperand .sed o
  | .sei => noOperand .sei o
  | .sep => maskByte .sep o
  | .sta => onMemory staForm o
  | .stp => noOperand .stp o
  | .stx => onMemory stxForm o
  | .sty => onMemory styForm o
  | .stz => onMemory stzForm o
  | .tax => noOperand .tax o
  | .tay => noOperand .tay o
  | .tcd => noOperand .tcd o
  | .tcs => noOperand .tcs o
  | .tdc => noOperand .tdc o
  | .trb => onMemory trbForm o
  | .tsb => onMemory tsbForm o
  | .tsc => noOperand .tsc o
  | .tsx => noOperand .tsx o
  | .txa => noOperand .txa o
  | .txs => noOperand .txs o
  | .txy => noOperand .txy o
  | .tya => noOperand .tya o
  | .tyx => noOperand .tyx o
  | .wai => noOperand .wai o
  | .wdm => noOperand (.wdm Config.signatureByte) o
  | .xba => noOperand .xba o
  | .xce => noOperand .xce o
  | .xfe => if c.xfe.isSome then noOperand .xfe o else none

/-! ## The text of a line -/

/-- Lower case is the same as upper case (R112). -/
def upper (c : Char) : Char := if 'a'.toNat ≤ c.toNat ∧ c.toNat ≤ 'z'.toNat then Char.ofNat (c.toNat - 32) else c

/-- A letter, once in upper case (R112). -/
def isLetter (c : Char) : Bool := decide ('A'.toNat ≤ c.toNat) && decide (c.toNat ≤ 'Z'.toNat)

/-- A decimal digit (R115). -/
def isDigit (c : Char) : Bool := decide ('0'.toNat ≤ c.toNat) && decide (c.toNat ≤ '9'.toNat)

/-- A digit of a hexadecimal constant, in upper case (R115). -/
def isHexDigit (c : Char) : Bool := isDigit c || (isLetter c && decide (c.toNat ≤ 'F'.toNat))

/-- The number of a hexadecimal digit. -/
def hexDigit (c : Char) : Nat := if isDigit c then c.toNat - '0'.toNat else c.toNat - 'A'.toNat + 10

/-- The pieces of an operand: constants, names, and the other characters. -/
inductive AsmToken where
  | num (n : Nat)
  | name (cs : List Char)
  | sym (c : Char)
deriving DecidableEq, Repr

/-- A constant or a name that may still go on. -/
inductive OpenToken where
  | nothing
  | dec (n : Nat)
  | hex (n : Nat)
  | name (cs : List Char)
deriving DecidableEq, Repr

/-- The token that has ended, if there was one. -/
def OpenToken.close : OpenToken → List AsmToken
  | .nothing => []
  | .dec n => [.num n]
  | .hex n => [.num n]
  | .name cs => [.name cs]

/-- Whether a character goes on with the open token, and the longer token (R115). -/
def OpenToken.extend (c : Char) : OpenToken → Option OpenToken
  | .nothing => none
  | .dec n => if isDigit c then some (.dec (10 * n + hexDigit c)) else none
  | .hex n => if isHexDigit c then some (.hex (16 * n + hexDigit c)) else none
  | .name cs => if isLetter c || isDigit c then some (.name (cs ++ [c])) else none

/-- What a character begins: a hexadecimal constant, a decimal constant, a name, or nothing (R115). -/
def OpenToken.start (c : Char) : Option OpenToken :=
  if c = '$' then some (.hex 0)
  else if isDigit c then some (.dec (hexDigit c))
  else if isLetter c then some (.name [c])
  else none

/-- The tokens of an operand, in upper case (R115). -/
def tokens (t : OpenToken) : List Char → List AsmToken
  | [] => t.close
  | c :: rest =>
    match t.extend c with
    | some t' => tokens t' rest
    | none =>
      match OpenToken.start c with
      | some t' => t.close ++ tokens t' rest
      | none => t.close ++ .sym c :: tokens .nothing rest

/-- The labels the assembler knows: their values, and whether each is known when the instruction is assembled (R116). -/
abbrev LabelTable := List (List Char × Word × Bool)

/-- A constant or a label (R115). -/
def termValue (env : LabelTable) : AsmToken → Option AsmValue
  | .num n => some ⟨BitVec.ofNat 32 n, true, none⟩
  | .name cs => (env.lookup cs).map fun v => ⟨v.1, v.2, none⟩
  | .sym _ => none

/-- The rest of a sum: additions and subtractions from the left, 32 bits wide (R115). -/
def sumValue (env : LabelTable) (acc : AsmValue) : List AsmToken → Option (AsmValue × List AsmToken)
  | .sym '+' :: t :: rest =>
    match termValue env t with
    | none => none
    | some v => sumValue env ⟨acc.value + v.value, acc.located && v.located, acc.force⟩ rest
  | .sym '-' :: t :: rest =>
    match termValue env t with
    | none => none
    | some v => sumValue env ⟨acc.value - v.value, acc.located && v.located, acc.force⟩ rest
  | ts => some (acc, ts)

/-- An expression (R115). -/
def exprValue (env : LabelTable) : List AsmToken → Option (AsmValue × List AsmToken)
  | [] => none
  | t :: rest =>
    match termValue env t with
    | none => none
    | some v => sumValue env v rest

/-- The class that a prefix character forces (R119). -/
def forceOf : AsmToken → Option AddrClass
  | .sym '<' => some .d
  | .sym '|' => some .a
  | .sym '!' => some .a
  | .sym '>' => some .al
  | _ => none

/-- An expression with an optional prefix, which is applied after it is computed (R119). -/
def addressValue (env : LabelTable) : List AsmToken → Option (AsmValue × List AsmToken)
  | [] => none
  | t :: rest =>
    match forceOf t with
    | none => exprValue env (t :: rest)
    | some k => (exprValue env rest).map fun q => (⟨q.1.value, q.1.located, some k⟩, q.2)

/-- The byte selection operator of an immediate and what stands after it (R123). -/
def byteSel : List AsmToken → ByteSel × List AsmToken
  | .sym '<' :: rest => (.low, rest)
  | .sym '>' :: rest => (.second, rest)
  | .sym '^' :: rest => (.third, rest)
  | ts => (.low, ts)

/-- What may stand after the value inside round brackets (R117). -/
def afterRound (v : AsmValue) (ts : List AsmToken) : Option AsmOperand :=
  if ts = [.sym ')'] then some (.ind v)
  else if ts = [.sym ')', .sym ',', .name ['Y']] then some (.indY v)
  else if ts = [.sym ',', .name ['X'], .sym ')'] then some (.indX v)
  else if ts = [.sym ',', .name ['S'], .sym ')', .sym ',', .name ['Y']] then some (.stkIndY v)
  else none

/-- What may stand after the value inside square brackets (R117, R120). -/
def afterSquare (v : AsmValue) (ts : List AsmToken) : Option AsmOperand :=
  if ts = [.sym ']'] then some (.bracket v)
  else if ts = [.sym ']', .sym ',', .name ['Y']] then some (.bracketY v)
  else none

/-- The second value of a block move (R122). Each bank is the low byte of its value, and a prefix on the first value plays
no part: the model's choice (log 23). -/
def secondValue (env : LabelTable) (v : AsmValue) : List AsmToken → Option AsmOperand
  | .sym ',' :: rest =>
    match exprValue env rest with
    | some (w, []) => some (.two ⟨v.value, v.located, some .d⟩ ⟨w.value, w.located, some .d⟩)
    | _ => none
  | _ => none

/-- What may stand after a value without brackets (R117). -/
def afterValue (env : LabelTable) (v : AsmValue) (ts : List AsmToken) : Option AsmOperand :=
  if ts = [] then some (.addr v)
  else if ts = [.sym ',', .name ['X']] then some (.addrX v)
  else if ts = [.sym ',', .name ['Y']] then some (.addrY v)
  else if ts = [.sym ',', .name ['S']] then some (.stk v)
  else secondValue env v ts

/-- The operand that the operand field stands for (R117). -/
def operandOf (env : LabelTable) (ts : List AsmToken) : Option AsmOperand :=
  match ts with
  | [] => some .none
  | [.name ['A']] => some .acc
  | .sym '#' :: rest =>
    match exprValue env (byteSel rest).2 with
    | some (v, []) => some (.imm (byteSel rest).1 v)
    | _ => none
  | .sym '(' :: rest => (addressValue env rest).bind fun q => afterRound q.1 q.2
  | .sym '[' :: rest => (addressValue env rest).bind fun q => afterSquare q.1 q.2
  | _ => (addressValue env ts).bind fun q => afterValue env q.1 q.2

/-- The text up to the next space, and the rest. -/
def word : List Char → List Char × List Char
  | [] => ([], [])
  | c :: rest => if c = ' ' then ([], rest) else (c :: (word rest).1, (word rest).2)

/-- The text without the spaces in front of it. -/
def skipSpaces : List Char → List Char
  | [] => []
  | c :: rest => if c = ' ' then skipSpaces rest else c :: rest

/-- A comment line: blank, or starting with a semicolon or an asterisk (R112). -/
def isComment (line : List Char) : Bool :=
  match line with
  | ';' :: _ => true
  | '*' :: _ => true
  | _ => (skipSpaces line).isEmpty

/-- A label: a letter, then letters and digits (R112). -/
def isLabel : List Char → Bool
  | [] => false
  | c :: rest => isLetter c && rest.all fun d => isLetter d || isDigit d

/-- A line that stands for one instruction, with its label if it has one. -/
structure AsmLine where
  label : Option (List Char)
  instr : Instr
deriving DecidableEq, Repr

/-- The text of the operand field: none where the mnemonic takes none, and none after BRK or COP where the next word is
no immediate; what stands there is then a comment (R112, R117). -/
def operandField (m : Mnemonic) (rest : List Char) : List Char :=
  let field := (word (skipSpaces rest)).1
  if m.bare || ((m == .brk || m == .cop) && field.head? != some '#') then [] else field

/-- Operation code and operand: a mnemonic or one of its aliases, and its operand field; what stands after them is a
comment (R112, R114). -/
def assembleFields (env : LabelTable) (c : DecodeCtx) (pc : Half) (op rest : List Char) : Option Instr :=
  match accAliasTable.lookup op with
  | some m => assemble c pc m .acc
  | none =>
    match (mnemonicTable ++ aliasTable).lookup op with
    | none => none
    | some m => (operandOf env (tokens .nothing (operandField m rest))).bind (assemble c pc m)

/-- The instruction of one line (R112): the label begins in column one, the operation code after it or from column two
on. None for a comment line and for text the recommendation does not describe. -/
def assembleLine (env : LabelTable) (c : DecodeCtx) (pc : Half) (line : List Char) : Option AsmLine :=
  let text := line.map upper
  let first := word text
  let body := word (skipSpaces first.2)
  if isComment line then none
  else if first.1 = [] then (assembleFields env c pc body.1 body.2).map fun i => ⟨none, i⟩
  else if isLabel first.1 then (assembleFields env c pc body.1 body.2).map fun i => ⟨some first.1, i⟩
  else none

end Sys2Proof.Machine
end

