-- ==== Sys2Proof/Safety.lean ====
section
/-! DEFINITION. What a good state is, what it means that a step leaves something unchanged, and the addresses the stack
operations reach: the terms the statements use. -/

namespace Sys2Proof.Machine

/-- The invariant of the machine. Memory is in canonical form and lists physical addresses only (R70, R73); in `emu8`
M and Xf are 1 and SH is `$01` (R35, R43); while Xf is 1, bits 31:8 of X and Y are 0 (R25); `abort_pending` is set only
under the precise abort model (R367 (3)). -/
abbrev State.Inv (s : State) : Prop :=
  Mem.wf s.mem ∧ Mem.inSpace s.cfg.addrBits.bits s.mem ∧
    (s.emu8 = true → s.p.m = true ∧ s.p.x = true ∧ halfHi s.sp = 0x01) ∧
    (s.p.x = true → s.x.toNat < 256 ∧ s.y.toNat < 256) ∧
    (s.abortPending = true → s.cfg.abortModel = .precise)

/-- The pieces of state of R20 and the model's own fields, the bus record apart. -/
inductive Piece where
  | a
  | x
  | y
  | sp
  | dr
  | pc
  | pbr
  | dbr
  | p
  | modes
  | run
  | nmi
  | abort
  | mem
  | cfg
  | inputs
  | free
deriving DecidableEq, Repr

/-- A piece is the same in two states; memory is the same when every byte reads the same. -/
def Piece.same (s t : State) : Piece → Prop
  | .a => t.a = s.a
  | .x => t.x = s.x
  | .y => t.y = s.y
  | .sp => t.sp = s.sp
  | .dr => t.dr = s.dr
  | .pc => t.pc = s.pc
  | .pbr => t.pbr = s.pbr
  | .dbr => t.dbr = s.dbr
  | .p => t.p = s.p
  | .modes => t.e8 = s.e8 ∧ t.e16 = s.e16
  | .run => t.run = s.run
  | .nmi => t.nmiPending = s.nmiPending
  | .abort => t.abortPending = s.abortPending
  | .mem => ∀ a, Mem.read t.mem a = Mem.read s.mem a
  | .cfg => t.cfg = s.cfg
  | .inputs => t.inputs = s.inputs
  | .free => t.freeIdx = s.freeIdx

/-- Every piece of state but the listed ones is the same in `t` as in `s`. -/
def unchangedBut (changed : List Piece) (s t : State) : Prop := ∀ q, q ∉ changed → q.same s t

/-- The physical address of byte `k` of an access (R76, R73). -/
def State.physByte (s : State) (ea : EA) (k : Nat) : Nat := s.phys (s.byteAddr ea k)

/-- The `n` bytes of `v` stand at an effective address of `s`, byte `k` at the address of byte `k` (R75, R78), and
every other byte of memory is as in `s`. -/
def storedAt (s t : State) (ea : EA) (n : Nat) (v : Word) : Prop :=
  (∀ k < n, Mem.read t.mem (s.physByte ea k) = byteOf v k) ∧
    ∀ a, (∀ k < n, a ≠ s.physByte ea k) → Mem.read t.mem a = Mem.read s.mem a

/-- Instruction `i` stores `n` bytes of `v` at an effective address and does nothing else but move PC past itself. -/
def storesOnly (i : Instr) (s : State) (ea : EA) (n : Nat) (v : Word) (len : Nat) : Prop :=
  ∃ t, exec i s = .next t ∧ storedAt s t ea n v ∧ t.pc.toNat = (s.pc.toNat + len) % 65536 ∧
    unchangedBut [.mem, .pc] s t

/-- S after `k` pushes (R80, R83): the address of the push that follows them. -/
def State.pushPtr (s : State) (r : StackRule) : Nat → Half
  | 0 => s.sp
  | k + 1 => s.stackPtr r (s.pushPtr r k - 1)

/-- S after `k` pulls (R82, R83): the address the last of them has read. -/
def State.pullPtr (s : State) (r : StackRule) : Nat → Half
  | 0 => s.sp
  | k + 1 => s.stackPtr r (s.pullPtr r k + 1)

/-- The physical address of a stack pointer value: in bank 0 (R42). -/
def State.stackPhys (s : State) (sp : Half) : Nat := s.phys (zextHalf sp)

/-- The bytes `bs` have been pushed, first byte first (R80, R81), and every other byte of memory is as in `s`. -/
def pushedBytes (s t : State) (r : StackRule) (bs : List Byte) : Prop :=
  (∀ k, (h : k < bs.length) → Mem.read t.mem (s.stackPhys (s.pushPtr r k)) = bs[k]) ∧
    ∀ a, (∀ k < bs.length, a ≠ s.stackPhys (s.pushPtr r k)) → Mem.read t.mem a = Mem.read s.mem a

/-- The byte the `k`-th pull would read (R82), the first being pull 1. -/
def State.pulledByte (s : State) (r : StackRule) (k : Nat) : Byte := Mem.read s.mem (s.stackPhys (s.pullPtr r k))

/-! ## What a register, a flag or a pointer becomes, as numbers -/

/-- The low bits of `new` at width `w` are those of the number `v`, and its bits above are those of `old` (R22, R26). -/
def writesLow (w : Width) (old : Word) (v : Nat) (new : Word) : Prop :=
  new.toNat % 2 ^ w.bits = v % 2 ^ w.bits ∧ new.toNat / 2 ^ w.bits = old.toNat / 2 ^ w.bits

/-- N is bit `w - 1` of the number `v` and Z says that its bits below `w` are 0 (R170); the other flags are kept. -/
def Status.withNZ (w : Width) (v : Nat) (p : Status) : Status :=
  { p with n := v.testBit (w.bits - 1), z := decide (v % 2 ^ w.bits = 0) }

/-- PC has moved by `k` inside its bank (R16, R30). -/
def pcMoves (s t : State) (k : Nat) : Prop := t.pc.toNat = (s.pc.toNat + k) % 65536

/-- S has moved by `k` (modulo `2^16`) and is back in page 1 in `emu8` (R80, R82, R83). -/
def spMoves (s t : State) (k : Nat) : Prop :=
  t.sp.toNat = if s.emu8 then 256 + (s.sp.toNat + k) % 256 else (s.sp.toNat + k) % 65536

/-- The number whose little-endian bytes are `f 0`, `f 1`, … `f (n - 1)` (R75). -/
def littleEndian (f : Nat → Byte) : Nat → Nat
  | 0 => 0
  | n + 1 => littleEndian f n + (f n).toNat * 256 ^ n

/-- The number in the next `n` bytes to be pulled, the first one lowest (R82). -/
def State.pulled (s : State) (r : StackRule) (n : Nat) : Nat := littleEndian (fun k => s.pulledByte r (k + 1)) n

/-- The bytes of a word below byte `n`, most significant first: the order of a push (R81). -/
def bytesDown (v : Word) (n : Nat) : List Byte := (List.range n).reverse.map (byteOf v)

/-- The byte with the given bits, bit 7 first (R13). -/
def byteOfBits (b7 b6 b5 b4 b3 b2 b1 b0 : Bool) : Byte :=
  BitVec.ofNat 8 (128 * b7.toNat + 64 * b6.toNat + 32 * b5.toNat + 16 * b4.toNat + 8 * b3.toNat + 4 * b2.toNat +
    2 * b1.toNat + b0.toNat)

/-- The status byte an instruction or an interrupt pushes; `brk` is the Break flag of `emu8` (R36, R373). -/
def State.statusByte (s : State) (brk : Bool) : Byte :=
  byteOfBits s.p.n s.p.v (s.emu8 || s.p.m) (if s.emu8 then brk else s.p.x) s.p.d s.p.i s.p.z s.p.c

/-- P after a pulled byte: in `emu8` M and Xf are 1 whatever its bits 5 and 4 are (R35, R256). -/
def State.statusPulled (s : State) (v : Byte) : Status where
  n := v.getLsbD 7
  v := v.getLsbD 6
  m := s.emu8 || v.getLsbD 5
  x := s.emu8 || v.getLsbD 4
  d := v.getLsbD 3
  i := v.getLsbD 2
  z := v.getLsbD 1
  c := v.getLsbD 0

/-- X and Y keep their low byte only when Xf is 1 after the step, and all their bits when it is 0 (R25, R320). -/
def indexForced (s t : State) : Prop :=
  (t.p.x = true → t.x.toNat = s.x.toNat % 256 ∧ t.y.toNat = s.y.toNat % 256) ∧
    (t.p.x = false → t.x = s.x ∧ t.y = s.y)

/-- SH is `$01` when the step ends in `emu8`; else S is kept (R37, R320). -/
def stackForced (s t : State) : Prop :=
  t.sp.toNat = if t.emu8 then 256 + s.sp.toNat % 256 else s.sp.toNat

/-- The number a block of `n` decimal digits stands for (R192). -/
def decimalNumber (n v : Nat) : Nat := ((List.range n).map fun k => v / 16 ^ k % 16 * 10 ^ k).sum

/-- Each of the low `n` digits is at most 9 (R192). -/
def allDecimal (n v : Nat) : Prop := ∀ k < n, v / 16 ^ k % 16 ≤ 9

/-- The signed number the low bits of `v` at width `w` stand for, in two's complement. -/
def signedAt (w : Width) (v : Nat) : Int := Int.bmod (v : Int) (2 ^ w.bits)

/-- A number is out of the signed range of width `w`: signed overflow (R191, R195). -/
def outOfRange (w : Width) (r : Int) : Bool := !(decide (-(2 ^ (w.bits - 1)) ≤ r) && decide (r < 2 ^ (w.bits - 1)))

/-- The low bits of the accumulator as a number: `Am` (R14). -/
def State.amNat (s : State) : Nat := s.a.toNat % 2 ^ s.mw.bits

/-- The shifts and counts of R205 to R210. -/
inductive ShiftOp where
  | asl
  | lsr
  | rol
  | ror
  | inc
  | dec
deriving DecidableEq, Repr

/-- The new value, from the old one (below `2 ^ w.bits`) and the old carry (R205 to R210). -/
def ShiftOp.result (w : Width) (m : Nat) (c : Bool) : ShiftOp → Nat
  | .asl => 2 * m % 2 ^ w.bits
  | .lsr => m / 2
  | .rol => (2 * m + c.toNat) % 2 ^ w.bits
  | .ror => m / 2 + c.toNat * 2 ^ (w.bits - 1)
  | .inc => (m + 1) % 2 ^ w.bits
  | .dec => (m + 2 ^ w.bits - 1) % 2 ^ w.bits

/-- The new carry: the bit shifted out; INC and DEC keep it (R205 to R210). -/
def ShiftOp.carry (w : Width) (m : Nat) (c : Bool) : ShiftOp → Bool
  | .asl => m.testBit (w.bits - 1)
  | .lsr => m.testBit 0
  | .rol => m.testBit (w.bits - 1)
  | .ror => m.testBit 0
  | .inc => c
  | .dec => c

/-- The accumulator form (R137, R204). -/
def ShiftOp.acc : ShiftOp → Instr
  | .asl => .aslAcc
  | .lsr => .lsrAcc
  | .rol => .rolAcc
  | .ror => .rorAcc
  | .inc => .incAcc
  | .dec => .decAcc

/-- The memory forms (R204). -/
def ShiftOp.onMem : ShiftOp → Mode → Option Instr
  | .asl => aslForm
  | .lsr => lsrForm
  | .rol => rolForm
  | .ror => rorForm
  | .inc => incForm
  | .dec => decForm

/-- The entry into a handler (R370): the frame is pushed (the bank outside `emu8`, the return address, the status
byte), Df is cleared and I set, PBR is cleared, DBR too in `emu8`, PC is read from the vector of the mode, and the
processor runs. -/
def entersHandler (s t : State) (ret : Half) (brk : Bool) (vecEmu8 vecEmu16 vecNative : Nat) : Prop :=
  let vec := if s.emu8 then vecEmu8 else if s.emu16 then vecEmu16 else vecNative
  pushedBytes s t .wrapping
      ((if s.emu8 then [] else [s.pbr]) ++ [halfHi ret, halfLo ret, s.statusByte brk]) ∧
    spMoves s t (if s.emu8 then 65533 else 65532) ∧ t.p = { s.p with d := false, i := true } ∧ t.pbr = 0 ∧
    t.dbr = (if s.emu8 then 0 else s.dbr) ∧
    t.pc.toNat = (Mem.read t.mem vec).toNat + 256 * (Mem.read t.mem (vec + 1)).toNat ∧ t.run = .running

/-- The inputs at the coming boundary let an instruction run: no reset, no NMI- edge, no ABORT- that counts, and IRQ-
high or masked (R360, R367 (7)). -/
def calm (s : State) : Prop :=
  (currentInputs s).res = .inactive ∧ (currentInputs s).nmiEdge = false ∧
    ((currentInputs s).irq = true → s.p.i = true) ∧
    ((currentInputs s).abort = true → s.cfg.abortModel = .none)

/-- Nothing is latched (R45, R46). -/
def noneLatched (s : State) : Prop := s.nmiPending = false ∧ s.abortPending = false

/-- A kind of access that writes. -/
def BusKind.isWrite : BusKind → Bool
  | .opcodeFetch => false
  | .operandFetch => false
  | .pointerRead => false
  | .dataRead => false
  | .dataWrite => true
  | .stackRead => false
  | .stackWrite => true
  | .vectorRead => false

/-- Carry out the writes of a list of accesses, in order. -/
def replay (m : List Host.Cell) : List BusEvent → List Host.Cell
  | [] => m
  | e :: rest => replay (if e.kind.isWrite then Mem.write m e.addr e.data else m) rest

end Sys2Proof.Machine
end

