-- ==== Sys2Proof/Certificates/Slice0/Obligations.lean ====
section
/-! DEFINITION. The statements for the provers. Each says what its docstring says, for every state and every operand
that meets its hypotheses. Where a value is a free value (log 3), the statement holds whatever it is. -/

open Sys2Proof
open Sys2Proof.Machine

/-! ## Encoding -/

/-- Decoding the bytes of a well-formed instruction gives the instruction back and leaves the bytes after it
(R100, R101, R103), unless XFE has taken its opcode byte (R107). -/
def Obligations.DecodeEncodeRoundTrip : Prop :=
  ∀ (c : DecodeCtx) (i : Instr) (rest : List Byte), i.wf c = true → i.shadowed c = false →
    decode c (encode c i ++ rest) = .ok (i, rest)

/-- Any opcode byte followed by four bytes decodes, in every mode (R109); and whatever decodes is well-formed
and encodes to the bytes it was decoded from (R101, R103, R107). -/
def Obligations.DecodeAcceptsAndReencodes : Prop :=
  (∀ (c : DecodeCtx) (op : Byte) (rest : List Byte), 4 ≤ rest.length → ∃ r, decode c (op :: rest) = .ok r) ∧
    ∀ (c : DecodeCtx) (bytes tail : List Byte) (i : Instr), decode c bytes = .ok (i, tail) →
      i.wf c = true ∧ i.shadowed c = false ∧ encode c i ++ tail = bytes

/-- Words written out from the matrix and the operand formats (R101 to R105): `A9 00 EA` in the three widths
(R104), a long address, a block move in and outside native mode, and XFE where it has a byte (R107). -/
def Obligations.DecodedWordsOfTheSpec : Prop :=
  decode ⟨.w8, .w8, false, none⟩ [0xA9, 0x00, 0xEA] = .ok (.ldaImm (.b1 0x00), [0xEA]) ∧
    decode ⟨.w16, .w8, false, none⟩ [0xA9, 0x00, 0xEA] = .ok (.ldaImm (.b2 0xEA00), []) ∧
    decode ⟨.w32, .w8, true, none⟩ [0xA9, 0x00, 0xEA] = .error (.missingOperand 4) ∧
    decode ⟨.w8, .w32, true, none⟩ [0xA2, 0x78, 0x56, 0x34, 0x12] = .ok (.ldxImm (.b4 0x12345678), []) ∧
    decode ⟨.w8, .w8, false, none⟩ [0x5C, 0x56, 0x34, 0x12] = .ok (.jmpLong 0x123456, []) ∧
    decode ⟨.w8, .w8, false, none⟩ [0x8D, 0x00, 0x20] = .ok (.staAbs 0x2000, []) ∧
    decode ⟨.w8, .w8, false, none⟩ [0x54, 0x34, 0x12] = .ok (.mvn (.banks 0x34 0x12), []) ∧
    decode ⟨.w8, .w8, true, none⟩ [0x54, 0x34, 0x12] = .ok (.mvn .native, [0x34, 0x12]) ∧
    decode ⟨.w8, .w8, false, some 0x42⟩ [0x42, 0xEA] = .ok (.xfe, [0xEA]) ∧
    decode ⟨.w8, .w8, false, none⟩ [0x42, 0xEA] = .ok (.wdm 0xEA, [])

/-! ## The step -/

/-- A step runs the decoded instruction: where the bytes at PBR:PC decode to `i`, the processor runs, nothing is
latched and the inputs are calm, the step is `exec i` at the state whose inputs have moved on and whose bus record
holds the fetches of `i` (R19, R74, R104, R367 (7)). The list of inputs and the bus record, empty before those fetches,
are the model's choice (log 8, log 15). -/
def Obligations.StepRunsDecodedInstruction : Prop :=
  ∀ (s : State) (i : Instr) (tail : List Byte), calm s → noneLatched s → s.run = .running →
    decode s.ctx [s.fetch 0, s.fetch 1, s.fetch 2, s.fetch 3, s.fetch 4] = .ok (i, tail) →
      step s = exec i (State.noteFetches (fetchedFirst i) ((s.setInputs s.inputs.tail).setBus []))

/-- Every step from a state that meets the invariant ends in a state that meets it: memory stays canonical and
inside the physical space, `emu8` keeps M = Xf = 1 and SH = `$01` (R35, R43), Xf = 1 keeps the index high bytes 0 (R25),
and ABORT- is latched only under the precise model (R367 (3)). -/
def Obligations.StepKeepsInvariant : Prop :=
  ∀ s t : State, s.Inv → step s = .next t → t.Inv

/-- The state right after reset meets the invariant (R49; its open values are the model's, log 5 and log 6). -/
def Obligations.ResetStateMeetsInvariant : Prop := State.reset.Inv

/-- Nothing stops the machine but what the spec puts outside its model: a step answers a next state, or the
environment has asserted ABORT- over an interrupt sequence under the precise model (R109, R361, R380; the stop is
log 9). -/
def Obligations.StepAnswersNextState : Prop :=
  ∀ s : State, (∃ t, step s = .next t) ∨
    (step s = .refused .abortedSequence ∧ s.cfg.abortModel = .precise ∧ (currentInputs s).abort = true ∧
      (currentInputs s).res = .inactive ∧ s.run ≠ .stopped ∧
      (s.abortPending = true ∨ s.nmiPending = true ∨ (currentInputs s).nmiEdge = true ∨
        ((currentInputs s).irq = true ∧ s.p.i = false)))

/-- PBR changes only by RTI, RTL, JML, JSL, JMP `al`, BRK and COP, and every interrupt sequence and reset clear it
(R31, R372). -/
def Obligations.ProgramBankWriters : Prop :=
  (∀ (i : Instr) (s t : State), exec i s = .next t → t.pbr ≠ s.pbr →
    i = .rti ∨ i = .rtl ∨ (∃ a, i = .jml a) ∨ (∃ a, i = .jsl a) ∨ (∃ a, i = .jmpLong a) ∨ (∃ g, i = .brk g) ∨
      ∃ g, i = .cop g) ∧
    (∀ (src : IntSource) (ret : Half) (b : Bool) (s : State), (s.interrupt src ret b).pbr = 0) ∧
    ∀ s : State, s.resetSequence.pbr = 0

/-- E16 changes only by XFE and E8 only by XCE and XFE (R322, R323); D changes only by TCD and PLD (R40); DBR
changes only by PLB, MVN, MVP, BRK and COP (R39); the run state changes only by WAI, STP, BRK and COP (R47). -/
def Obligations.ModeAndBankWriters : Prop :=
  ∀ (i : Instr) (s t : State), exec i s = .next t →
    (t.e16 ≠ s.e16 → i = .xfe) ∧ (t.e8 ≠ s.e8 → i = .xce ∨ i = .xfe) ∧ (t.dr ≠ s.dr → i = .tcd ∨ i = .pld) ∧
      (t.dbr ≠ s.dbr → i = .plb ∨ (∃ b, i = .mvn b) ∨ (∃ b, i = .mvp b) ∨ (∃ g, i = .brk g) ∨ ∃ g, i = .cop g) ∧
      (t.run ≠ s.run → i = .wai ∨ i = .stp ∨ (∃ g, i = .brk g) ∨ ∃ g, i = .cop g)

/-- The parameters of the spec, the NMI- and ABORT- latches and the coming inputs are changed by no instruction
(R10, R45, R46); and no step changes the parameters. Holding parameters and inputs in the state is the model's choice
(log 1, log 8). -/
def Obligations.NoInstructionTouchesTheEnvironment : Prop :=
  (∀ (i : Instr) (s t : State), exec i s = .next t →
    t.cfg = s.cfg ∧ t.nmiPending = s.nmiPending ∧ t.abortPending = s.abortPending ∧ t.inputs = s.inputs) ∧
    ∀ s t : State, step s = .next t → t.cfg = s.cfg ∧ t.inputs = s.inputs.tail

/-- The bus record of an instruction accounts for memory: it grows by the accesses of the instruction, and
carrying out its writes in order turns the old memory into the new (R78, R88, R89). The record is the model's own field
(log 15). -/
def Obligations.BusRecordReplaysMemory : Prop :=
  ∀ (i : Instr) (s t : State), exec i s = .next t →
    ∃ events, t.bus = s.bus ++ events ∧ t.mem = replay s.mem events

/-- Byte order on the bus: a plain store writes byte 0 first, then the bytes above it; the write-back of a
read-modify-write writes byte 0 last (R78); a read reads byte 0 first (R77). The record is the model's own field
(log 15). -/
def Obligations.OrderOnTheBus : Prop :=
  ∀ (s : State) (ea : EA) (n : Nat) (v : Word), n ≤ 4 →
    (s.memWrite ea n v).bus =
        s.bus ++ (List.range n).map (fun k => ⟨.dataWrite, s.physByte ea k, byteOf v k⟩) ∧
      (s.memWriteBack ea n v).bus =
        s.bus ++ ((List.range n).map fun k => ⟨.dataWrite, s.physByte ea k, byteOf v k⟩).reverse ∧
      ∀ k < n, (s.noteReads .dataRead ea n).bus[s.bus.length + k]? =
        some ⟨.dataRead, s.physByte ea k, Mem.read s.mem (s.physByte ea k)⟩

/-! ## Widths and memory -/

/-- The widths of Table 1-1 (R34). -/
def Obligations.WidthTable : Prop :=
  ∀ s : State,
    s.mw.bits = (if s.p.m = true then 8 else if s.e16 = false ∧ s.e8 = true then 32 else 16) ∧
      s.xw.bits = (if s.p.x = true then 8 else if s.e16 = true then 16 else 32)

/-- The address of byte `i` of an access, for each wrap kind, and the physical address it reaches (R76, R73). -/
def Obligations.ByteAddressOfAccess : Prop :=
  ∀ (s : State) (a : Word) (i : Nat), i < 4 →
    (s.byteAddr ⟨a, .lin⟩ i).toNat = (if s.native then (a.toNat + i) % 2 ^ 32 else (a.toNat + i) % 2 ^ 24) ∧
      (s.byteAddr ⟨a, .bank0⟩ i).toNat = (a.toNat % 65536 + i) % 65536 ∧
      (s.byteAddr ⟨a, .page⟩ i).toNat = a.toNat / 256 % 256 * 256 + (a.toNat % 256 + i) % 256 ∧
      (s.byteAddr ⟨a, .pbank⟩ i).toNat = s.pbr.toNat * 65536 + (a.toNat % 65536 + i) % 65536 ∧
      ∀ k : Wrap, s.physByte ⟨a, k⟩ i = (s.byteAddr ⟨a, k⟩ i).toNat % 2 ^ s.cfg.addrBits.bits

/-- `MemRead` puts the byte at the address of byte `k` in bits `8k+7 .. 8k` (R75, R77); both ways to write `n` bytes
leave byte `k` of the value at the address of byte `k` and every other byte of memory as it was (R78); and a read of what
was stored, at that width or a narrower one, sees its low bytes (R75, R89). -/
def Obligations.MemoryIsLittleEndian : Prop :=
  ∀ (s : State) (ea : EA) (n : Nat) (v : Word), n ≤ 4 →
    (s.memRead ea n).toNat = littleEndian (fun k => Mem.read s.mem (s.physByte ea k)) n ∧
      storedAt s (s.memWrite ea n v) ea n v ∧ storedAt s (s.memWriteBack ea n v) ea n v ∧
      ∀ k ≤ n, ((s.memWrite ea n v).memRead ea k).toNat = v.toNat % 256 ^ k

/-- The operand of an instruction that reads a value: an immediate is its bytes, low byte first, and a memory operand
is the bytes at the address of the mode (R105, R133, R170). -/
def Obligations.OperandValues : Prop :=
  ∀ (s : State) (w : Width),
    (∀ v : Imm, v.width = w →
      ((Operand.imm v).value w s).toNat = littleEndian (fun k => v.encode.getD k 0) w.bytes) ∧
    ∀ m : Mode, ((Operand.mem m).value w s).toNat =
      littleEndian (fun k => Mem.read s.mem (s.physByte (m.ea s) k)) w.bytes

/-! ## Addressing modes -/

/-- Direct and stack-relative addresses: in bank 0 and cut to 16 bits, or inside the page DH in `emu8` with
DL = 0 (R136, R143, R154). -/
def Obligations.DirectAddresses : Prop :=
  ∀ (s : State) (off : Byte),
    (¬(s.emu8 = true ∧ s.dr.toNat % 256 = 0) →
      (Mode.dir off).ea s = ⟨BitVec.ofNat 32 ((s.dr.toNat + off.toNat) % 65536), .bank0⟩ ∧
      (Mode.dirX off).ea s = ⟨BitVec.ofNat 32 ((s.dr.toNat + off.toNat + s.ix.toNat) % 65536), .bank0⟩ ∧
      (Mode.dirY off).ea s = ⟨BitVec.ofNat 32 ((s.dr.toNat + off.toNat + s.iy.toNat) % 65536), .bank0⟩) ∧
    (s.emu8 = true ∧ s.dr.toNat % 256 = 0 →
      (Mode.dir off).ea s = ⟨BitVec.ofNat 32 (s.dr.toNat + off.toNat), .page⟩ ∧
      (Mode.dirX off).ea s = ⟨BitVec.ofNat 32 (s.dr.toNat + (off.toNat + s.ix.toNat) % 256), .page⟩ ∧
      (Mode.dirY off).ea s = ⟨BitVec.ofNat 32 (s.dr.toNat + (off.toNat + s.iy.toNat) % 256), .page⟩) ∧
    (Mode.stk off).ea s = ⟨BitVec.ofNat 32 ((s.sp.toNat + off.toNat) % 65536), .bank0⟩

/-- Absolute addresses: the bank is DBR or the operand's third byte, and an index is added to the whole 24-bit
base, modulo `2^32` in native mode and `2^24` elsewhere (R132, R134, R135, R144 to R146). -/
def Obligations.AbsoluteAddresses : Prop :=
  ∀ (s : State) (addr : Half) (long : BitVec 24),
    let top := if s.native then 2 ^ 32 else 2 ^ 24
    let base := s.dbr.toNat * 65536 + addr.toNat
    (Mode.abs addr).ea s = ⟨BitVec.ofNat 32 base, .lin⟩ ∧
      (Mode.absX addr).ea s = ⟨BitVec.ofNat 32 ((base + s.ix.toNat) % top), .lin⟩ ∧
      (Mode.absY addr).ea s = ⟨BitVec.ofNat 32 ((base + s.iy.toNat) % top), .lin⟩ ∧
      (Mode.long long).ea s = ⟨BitVec.ofNat 32 long.toNat, .lin⟩ ∧
      (Mode.longX long).ea s = ⟨BitVec.ofNat 32 ((long.toNat + s.ix.toNat) % top), .lin⟩

/-- Indirect addresses: the pointer is read little-endian where its mode says, two bytes completed by DBR or
three bytes, and an index is added to the base (R139 to R142, R150, R151, R155). -/
def Obligations.IndirectAddresses : Prop :=
  ∀ (s : State) (off : Byte),
    let top := if s.native then 2 ^ 32 else 2 ^ 24
    let pointer := fun (p : EA) (n : Nat) => littleEndian (fun k => Mem.read s.mem (s.physByte p k)) n
    let linear : EA := ⟨BitVec.ofNat 32 ((s.dr.toNat + off.toNat) % 65536), .bank0⟩
    let bank := s.dbr.toNat * 65536
    (Mode.dirInd off).ea s = ⟨BitVec.ofNat 32 (bank + pointer ((Mode.dir off).ea s) 2), .lin⟩ ∧
      (Mode.dirXInd off).ea s = ⟨BitVec.ofNat 32 (bank + pointer ((Mode.dirX off).ea s) 2), .lin⟩ ∧
      (Mode.dirIndY off).ea s =
        ⟨BitVec.ofNat 32 ((bank + pointer ((Mode.dir off).ea s) 2 + s.iy.toNat) % top), .lin⟩ ∧
      (Mode.dirLong off).ea s = ⟨BitVec.ofNat 32 (pointer linear 3), .lin⟩ ∧
      (Mode.dirLongY off).ea s = ⟨BitVec.ofNat 32 ((pointer linear 3 + s.iy.toNat) % top), .lin⟩ ∧
      (Mode.stkIndY off).ea s =
        ⟨BitVec.ofNat 32 ((bank + pointer ((Mode.stk off).ea s) 2 + s.iy.toNat) % top), .lin⟩

/-! ## Loads and stores -/

/-- LDA in each of its fifteen forms: the low bits of A, N and Z, PC, and nothing else (R171, R170, R22). -/
def Obligations.LoadAccumulatorResult : Prop :=
  ∀ (o : Operand) (i : Instr) (s : State), ldaForm o = some i →
    ∃ t, exec i s = .next t ∧ writesLow s.mw s.a (o.value s.mw s).toNat t.a ∧
      t.p = s.p.withNZ s.mw (o.value s.mw s).toNat ∧ pcMoves s t o.len ∧ unchangedBut [.a, .p, .pc] s t

/-- LDX and LDY in each of their forms (R172, R173, R26). -/
def Obligations.LoadIndexResult : Prop :=
  ∀ (o : Operand) (i : Instr) (s : State),
    (ldxForm o = some i →
      ∃ t, exec i s = .next t ∧ writesLow s.xw s.x (o.value s.xw s).toNat t.x ∧
        t.p = s.p.withNZ s.xw (o.value s.xw s).toNat ∧ pcMoves s t o.len ∧ unchangedBut [.x, .p, .pc] s t) ∧
    (ldyForm o = some i →
      ∃ t, exec i s = .next t ∧ writesLow s.xw s.y (o.value s.xw s).toNat t.y ∧
        t.p = s.p.withNZ s.xw (o.value s.xw s).toNat ∧ pcMoves s t o.len ∧ unchangedBut [.y, .p, .pc] s t)

/-- STA, STX, STY and STZ in each of their forms: the low bytes of A, X, Y or 0 at the address of the mode, and nothing
else but PC; no flag (R174 to R178). -/
def Obligations.StoreResult : Prop :=
  ∀ (m : Mode) (i : Instr) (s : State),
    (staForm m = some i → storesOnly i s (m.ea s) s.mw.bytes s.a m.len) ∧
      (stxForm m = some i → storesOnly i s (m.ea s) s.xw.bytes s.x m.len) ∧
      (styForm m = some i → storesOnly i s (m.ea s) s.xw.bytes s.y m.len) ∧
      (stzForm m = some i → storesOnly i s (m.ea s) s.mw.bytes 0 m.len)

/-! ## Addition and subtraction -/

/-- ADC and SBC with Df = 0: the sum or the difference modulo `2^mw`, C the carry or "no borrow", V signed overflow,
N and Z of the result (R191, R194, R195). -/
def Obligations.BinaryAddSubtract : Prop :=
  ∀ (o : Operand) (i : Instr) (s : State), s.p.d = false →
    let w := s.mw
    let top := 2 ^ w.bits
    let m := (o.value w s).toNat
    (adcForm o = some i →
      let r := s.amNat + m + s.p.c.toNat
      ∃ t, exec i s = .next t ∧ writesLow w s.a r t.a ∧
        t.p =
          { s.p.withNZ w r with
            c := decide (top ≤ r)
            v := outOfRange w (signedAt w s.amNat + signedAt w m + s.p.c.toNat) } ∧
        pcMoves s t o.len ∧ unchangedBut [.a, .p, .pc] s t) ∧
    (sbcForm o = some i →
      let r := top + s.amNat - m - (!s.p.c).toNat
      ∃ t, exec i s = .next t ∧ writesLow w s.a r t.a ∧
        t.p =
          { s.p.withNZ w r with
            c := decide (m + (!s.p.c).toNat ≤ s.amNat)
            v := outOfRange w (signedAt w s.amNat - signedAt w m - (!s.p.c).toNat) } ∧
        pcMoves s t o.len ∧ unchangedBut [.a, .p, .pc] s t)

/-- ADC and SBC with Df = 1 on packed decimal operands: the decimal sum or difference modulo `10^(mw/4)`, again packed
decimal, C its carry or "no borrow", N and Z of the result; V is the binary overflow where `DECIMAL_V` says so, and
free where it does not (R192, R193, R196). -/
def Obligations.DecimalAddSubtract : Prop :=
  ∀ (o : Operand) (i : Instr) (s : State), s.p.d = true →
    let w := s.mw
    let n := w.bits / 4
    let m := (o.value w s).toNat
    allDecimal n s.amNat → allDecimal n m →
    (adcForm o = some i →
      ∃ t, exec i s = .next t ∧ writesLow w s.a t.amNat t.a ∧ allDecimal n t.amNat ∧
        decimalNumber n t.amNat = (decimalNumber n s.amNat + decimalNumber n m + s.p.c.toNat) % 10 ^ n ∧
        t.p =
          { s.p.withNZ w t.amNat with
            c := decide (10 ^ n ≤ decimalNumber n s.amNat + decimalNumber n m + s.p.c.toNat)
            v := t.p.v } ∧
        (s.cfg.decimalV = .binary →
          t.p.v = outOfRange w (signedAt w s.amNat + signedAt w m + s.p.c.toNat)) ∧
        pcMoves s t o.len ∧ unchangedBut [.a, .p, .pc, .free] s t) ∧
    (sbcForm o = some i →
      ∃ t, exec i s = .next t ∧ writesLow w s.a t.amNat t.a ∧ allDecimal n t.amNat ∧
        decimalNumber n t.amNat =
          (10 ^ n + decimalNumber n s.amNat - decimalNumber n m - (!s.p.c).toNat) % 10 ^ n ∧
        t.p =
          { s.p.withNZ w t.amNat with
            c := decide (decimalNumber n m + (!s.p.c).toNat ≤ decimalNumber n s.amNat)
            v := t.p.v } ∧
        (s.cfg.decimalV = .binary →
          t.p.v = outOfRange w (signedAt w s.amNat - signedAt w m - (!s.p.c).toNat)) ∧
        pcMoves s t o.len ∧ unchangedBut [.a, .p, .pc, .free] s t)

/-- ADC and SBC with Df = 1 where an operand has a digit above 9: the instruction completes; the low bits of A and the
flags N, V, Z, C are free, everything else is as it was (R192, R196; that all five are free is the model's reading,
log 4). -/
def Obligations.DecimalOperandWithLargeDigit : Prop :=
  ∀ (o : Operand) (i : Instr) (s : State), s.p.d = true →
    ¬(allDecimal (s.mw.bits / 4) s.amNat ∧ allDecimal (s.mw.bits / 4) (o.value s.mw s).toNat) →
    (adcForm o = some i ∨ sbcForm o = some i) →
    ∃ t, exec i s = .next t ∧ writesLow s.mw s.a t.amNat t.a ∧
      t.p = { s.p with n := t.p.n, v := t.p.v, z := t.p.z, c := t.p.c } ∧ s.freeIdx < t.freeIdx ∧
      pcMoves s t o.len ∧ unchangedBut [.a, .p, .pc, .free] s t

/-! ## Logic, comparison, bit test -/

/-- AND, ORA and EOR in each of their forms (R197 to R199). -/
def Obligations.LogicResult : Prop :=
  ∀ (o : Operand) (i : Instr) (s : State) (r : Nat),
    (andForm o = some i ∧ r = s.amNat &&& (o.value s.mw s).toNat) ∨
      (oraForm o = some i ∧ r = s.amNat ||| (o.value s.mw s).toNat) ∨
      (eorForm o = some i ∧ r = s.amNat ^^^ (o.value s.mw s).toNat) →
    ∃ t, exec i s = .next t ∧ writesLow s.mw s.a r t.a ∧ t.p = s.p.withNZ s.mw r ∧ pcMoves s t o.len ∧
      unchangedBut [.a, .p, .pc] s t

/-- CMP, CPX and CPY in each of their forms: N and Z of the difference, C unsigned "greater or equal"; no register
changes, and neither V nor Df plays a part (R201 to R203). -/
def Obligations.CompareResult : Prop :=
  ∀ (o : Operand) (i : Instr) (s : State) (w : Width) (reg : Nat),
    (cmpForm o = some i ∧ w = s.mw ∧ reg = s.amNat) ∨
      (cpxForm o = some i ∧ w = s.xw ∧ reg = s.x.toNat % 2 ^ s.xw.bits) ∨
      (cpyForm o = some i ∧ w = s.xw ∧ reg = s.y.toNat % 2 ^ s.xw.bits) →
    ∃ t, exec i s = .next t ∧
      t.p =
        { s.p.withNZ w (2 ^ w.bits + reg - (o.value w s).toNat) with c := decide ((o.value w s).toNat ≤ reg) } ∧
      pcMoves s t o.len ∧ unchangedBut [.p, .pc] s t

/-- BIT: Z says whether A and the operand have no bit in common; on memory, N and V are the operand's top two bits;
immediate, they are kept (R200). -/
def Obligations.BitTestResult : Prop :=
  (∀ (m : Mode) (i : Instr) (s : State), bitForm m = some i →
    let v := ((Operand.mem m).value s.mw s).toNat
    ∃ t, exec i s = .next t ∧
      t.p =
        { s.p with
          n := v.testBit (s.mw.bits - 1), v := v.testBit (s.mw.bits - 2), z := decide (s.amNat &&& v = 0) } ∧
      pcMoves s t m.len ∧ unchangedBut [.p, .pc] s t) ∧
  ∀ (v : Imm) (s : State), ∃ t, exec (.bitImm v) s = .next t ∧
    t.p = { s.p with z := decide (s.amNat &&& ((Operand.imm v).value s.mw s).toNat = 0) } ∧
    pcMoves s t (1 + v.width.bytes) ∧ unchangedBut [.p, .pc] s t

/-! ## Shifts, counts, test-and-set -/

/-- ASL, LSR, ROL, ROR, INC and DEC on the accumulator (R204 to R210). -/
def Obligations.ShiftAccumulatorResult : Prop :=
  ∀ (op : ShiftOp) (s : State),
    ∃ t, exec op.acc s = .next t ∧ writesLow s.mw s.a (op.result s.mw s.amNat s.p.c) t.a ∧
      t.p =
        { s.p.withNZ s.mw (op.result s.mw s.amNat s.p.c) with c := op.carry s.mw s.amNat s.p.c } ∧
      pcMoves s t 1 ∧ unchangedBut [.a, .p, .pc] s t

/-- The same six on memory, in each of their forms: the new value at the address the old one was read from, no register
but PC (R204 to R210). -/
def Obligations.ShiftMemoryResult : Prop :=
  ∀ (op : ShiftOp) (m : Mode) (i : Instr) (s : State), op.onMem m = some i →
    let v := ((Operand.mem m).value s.mw s).toNat
    ∃ t, exec i s = .next t ∧
      storedAt s t (m.ea s) s.mw.bytes (BitVec.ofNat 32 (op.result s.mw v s.p.c)) ∧
      t.p = { s.p.withNZ s.mw (op.result s.mw v s.p.c) with c := op.carry s.mw v s.p.c } ∧
      pcMoves s t m.len ∧ unchangedBut [.mem, .p, .pc] s t

/-- TSB and TRB in each of their forms: the bits of A are set or cleared in memory; Z tests the old value (R215,
R216). -/
def Obligations.TestAndSetResult : Prop :=
  ∀ (m : Mode) (i : Instr) (s : State) (r : Word),
    let v := (Operand.mem m).value s.mw s
    (tsbForm m = some i ∧ r = v ||| s.a) ∨ (trbForm m = some i ∧ r = v &&& ~~~s.a) →
    ∃ t, exec i s = .next t ∧ storedAt s t (m.ea s) s.mw.bytes r ∧
      t.p = { s.p with z := decide (s.amNat &&& v.toNat = 0) } ∧ pcMoves s t m.len ∧
      unchangedBut [.mem, .p, .pc] s t

/-- INX, INY, DEX and DEY: one byte each, and X or Y moves by one modulo `2^xw` (R211 to R214). -/
def Obligations.IndexCountResult : Prop :=
  (∀ c : DecodeCtx, encode c .inx = [0xE8] ∧ encode c .iny = [0xC8] ∧ encode c .dex = [0xCA] ∧
    encode c .dey = [0x88]) ∧
  ∀ (i : Instr) (s : State) (k : Nat),
    ((i = .inx ∧ k = 1) ∨ (i = .dex ∧ k = 2 ^ s.xw.bits - 1) →
      ∃ t, exec i s = .next t ∧ writesLow s.xw s.x (s.x.toNat + k) t.x ∧
        t.p = s.p.withNZ s.xw (s.x.toNat + k) ∧ pcMoves s t 1 ∧ unchangedBut [.x, .p, .pc] s t) ∧
    ((i = .iny ∧ k = 1) ∨ (i = .dey ∧ k = 2 ^ s.xw.bits - 1) →
      ∃ t, exec i s = .next t ∧ writesLow s.xw s.y (s.y.toNat + k) t.y ∧
        t.p = s.p.withNZ s.xw (s.y.toNat + k) ∧ pcMoves s t 1 ∧ unchangedBut [.y, .p, .pc] s t)

/-! ## Transfers -/

/-- TAX, TYX and TSX write X, TAY and TXY write Y, TXA and TYA write A: the low bits of the whole source register, as
many as the destination is wide, and N and Z at that width (R230 to R235, R237, R238). -/
def Obligations.RegisterTransferResult : Prop :=
  (∀ c : DecodeCtx, encode c .tax = [0xAA] ∧ encode c .tyx = [0xBB] ∧ encode c .tsx = [0xBA] ∧
    encode c .tay = [0xA8] ∧ encode c .txy = [0x9B] ∧ encode c .txa = [0x8A] ∧ encode c .tya = [0x98]) ∧
  ∀ (i : Instr) (s : State) (v : Nat),
    ((i = .tax ∧ v = s.a.toNat) ∨ (i = .tyx ∧ v = s.y.toNat) ∨ (i = .tsx ∧ v = s.sp.toNat) →
      ∃ t, exec i s = .next t ∧ writesLow s.xw s.x v t.x ∧ t.p = s.p.withNZ s.xw v ∧ pcMoves s t 1 ∧
        unchangedBut [.x, .p, .pc] s t) ∧
    ((i = .tay ∧ v = s.a.toNat) ∨ (i = .txy ∧ v = s.x.toNat) →
      ∃ t, exec i s = .next t ∧ writesLow s.xw s.y v t.y ∧ t.p = s.p.withNZ s.xw v ∧ pcMoves s t 1 ∧
        unchangedBut [.y, .p, .pc] s t) ∧
    ((i = .txa ∧ v = s.x.toNat) ∨ (i = .tya ∧ v = s.y.toNat) →
      ∃ t, exec i s = .next t ∧ writesLow s.mw s.a v t.a ∧ t.p = s.p.withNZ s.mw v ∧ pcMoves s t 1 ∧
        unchangedBut [.a, .p, .pc] s t)

/-- The transfers that move 16 bits whatever the widths are: TSC and TDC write A[15:0] and TCD writes D, with N and Z of
the 16-bit value; XBA exchanges the two low bytes of A, with N and Z of the new low byte; A[31:16] is kept (R239, R240,
R242, R243). -/
def Obligations.SixteenBitTransferResult : Prop :=
  ∀ s : State,
    (∃ t, exec .tsc s = .next t ∧ writesLow .w16 s.a s.sp.toNat t.a ∧ t.p = s.p.withNZ .w16 s.sp.toNat ∧
      pcMoves s t 1 ∧ unchangedBut [.a, .p, .pc] s t) ∧
    (∃ t, exec .tdc s = .next t ∧ writesLow .w16 s.a s.dr.toNat t.a ∧ t.p = s.p.withNZ .w16 s.dr.toNat ∧
      pcMoves s t 1 ∧ unchangedBut [.a, .p, .pc] s t) ∧
    (∃ t, exec .tcd s = .next t ∧ t.dr.toNat = s.a.toNat % 65536 ∧ t.p = s.p.withNZ .w16 s.a.toNat ∧
      pcMoves s t 1 ∧ unchangedBut [.dr, .p, .pc] s t) ∧
    ∃ t, exec .xba s = .next t ∧
      writesLow .w16 s.a (s.a.toNat % 256 * 256 + s.a.toNat / 256 % 256) t.a ∧
      t.p = s.p.withNZ .w8 (s.a.toNat / 256) ∧ pcMoves s t 1 ∧ unchangedBut [.a, .p, .pc] s t

/-- TCS and TXS: one byte each; S takes the low 16 bits of A or X, but in `emu8` SH is `$01` (R236, R241). -/
def Obligations.TransferToStackPointerResult : Prop :=
  (∀ c : DecodeCtx, encode c .tcs = [0x1B] ∧ encode c .txs = [0x9A]) ∧
  ∀ (i : Instr) (s : State) (v : Nat), (i = .tcs ∧ v = s.a.toNat) ∨ (i = .txs ∧ v = s.x.toNat) →
    ∃ t, exec i s = .next t ∧ t.sp.toNat = (if s.emu8 then 256 + v % 256 else v % 65536) ∧ pcMoves s t 1 ∧
      unchangedBut [.sp, .pc] s t

/-! ## The stack -/

/-- What was pushed is pulled: after a push of `n` bytes a pull of `n` bytes gives the value back and returns S to where
it was, for both families of stack primitives; in `emu8`, from a state that meets the invariant (R80 to R83). -/
def Obligations.PushThenPull : Prop :=
  ∀ (s : State) (r : StackRule) (v : Word) (n : Nat), s.Inv → n ≤ 4 →
    (((s.pushN r v n).pullN r n).1.toNat = v.toNat % 256 ^ n) ∧ ((s.pushN r v n).pullN r n).2.sp = s.sp

/-- PHA, PHX, PHY: the register at its width, most significant byte first (R81, R245 to R247). -/
def Obligations.PushRegisterResult : Prop :=
  ∀ (i : Instr) (s : State) (v : Word) (n : Nat),
    (i = .pha ∧ v = s.a ∧ n = s.mw.bytes) ∨ (i = .phx ∧ v = s.x ∧ n = s.xw.bytes) ∨
      (i = .phy ∧ v = s.y ∧ n = s.xw.bytes) →
    ∃ t, exec i s = .next t ∧ pushedBytes s t .wrapping (bytesDown v n) ∧ spMoves s t (65536 - n) ∧ pcMoves s t 1 ∧
      unchangedBut [.mem, .sp, .pc] s t

/-- PHB, PHK and PHP: one byte; PHP pushes P, with bits 5 and 4 as 1 in `emu8` (R248, R249, R251, R36). -/
def Obligations.PushByteResult : Prop :=
  ∀ (i : Instr) (s : State) (v : Byte),
    (i = .phb ∧ v = s.dbr) ∨ (i = .phk ∧ v = s.pbr) ∨ (i = .php ∧ v = s.statusByte true) →
    ∃ t, exec i s = .next t ∧ pushedBytes s t .wrapping [v] ∧ spMoves s t 65535 ∧ pcMoves s t 1 ∧
      unchangedBut [.mem, .sp, .pc] s t

/-- PHD, PEA, PEI and PER push two bytes without wrapping in page 1, high byte first: D, the operand, the two bytes at
D + offset in bank 0, or the next PC plus the operand (R83, R250, R259 to R261). -/
def Obligations.PushWordResult : Prop :=
  ∀ (i : Instr) (s : State) (hi lo : Byte) (len : Nat),
    (i = .phd ∧ hi = halfHi s.dr ∧ lo = halfLo s.dr ∧ len = 1) ∨
      (∃ v, i = .pea v ∧ hi = halfHi v ∧ lo = halfLo v ∧ len = 3) ∨
      (∃ off : Byte, i = .pei off ∧
        hi = Mem.read s.mem ((s.dr.toNat + off.toNat + 1) % 65536) ∧
        lo = Mem.read s.mem ((s.dr.toNat + off.toNat) % 65536) ∧ len = 2) ∨
      (∃ off : Half, i = .per off ∧ hi = halfHi (s.pc + 3 + off) ∧ lo = halfLo (s.pc + 3 + off) ∧ len = 3) →
    ∃ t, exec i s = .next t ∧ pushedBytes s t .plain [hi, lo] ∧ spMoves s t 65534 ∧ pcMoves s t len ∧
      unchangedBut [.mem, .sp, .pc] s t

/-- PLA, PLX, PLY: the register at its width, least significant byte first; N and Z (R82, R253 to R255). -/
def Obligations.PullRegisterResult : Prop :=
  ∀ s : State,
    (∃ t, exec .pla s = .next t ∧ writesLow s.mw s.a (s.pulled .wrapping s.mw.bytes) t.a ∧
      t.p = s.p.withNZ s.mw (s.pulled .wrapping s.mw.bytes) ∧ spMoves s t s.mw.bytes ∧ pcMoves s t 1 ∧
      unchangedBut [.a, .p, .sp, .pc] s t) ∧
    (∃ t, exec .plx s = .next t ∧ writesLow s.xw s.x (s.pulled .wrapping s.xw.bytes) t.x ∧
      t.p = s.p.withNZ s.xw (s.pulled .wrapping s.xw.bytes) ∧ spMoves s t s.xw.bytes ∧ pcMoves s t 1 ∧
      unchangedBut [.x, .p, .sp, .pc] s t) ∧
    ∃ t, exec .ply s = .next t ∧ writesLow s.xw s.y (s.pulled .wrapping s.xw.bytes) t.y ∧
      t.p = s.p.withNZ s.xw (s.pulled .wrapping s.xw.bytes) ∧ spMoves s t s.xw.bytes ∧ pcMoves s t 1 ∧
      unchangedBut [.y, .p, .sp, .pc] s t

/-- PLP: all of P from the stack, but M and Xf in `emu8`; the index high bytes follow Xf (R256, R320). -/
def Obligations.PullStatusResult : Prop :=
  ∀ s : State, ∃ t, exec .plp s = .next t ∧ t.p = s.statusPulled (s.pulledByte .wrapping 1) ∧ indexForced s t ∧
    spMoves s t 1 ∧ pcMoves s t 1 ∧ unchangedBut [.p, .x, .y, .sp, .pc] s t

/-- PLB pulls DBR, with N and Z of the byte; PLD pulls D without wrapping in page 1, with N and Z of the 16 bits (R257,
R258, R83). -/
def Obligations.PullBankAndDirectResult : Prop :=
  ∀ s : State,
    (∃ t, exec .plb s = .next t ∧ t.dbr = s.pulledByte .wrapping 1 ∧ t.p = s.p.withNZ .w8 t.dbr.toNat ∧
      spMoves s t 1 ∧ pcMoves s t 1 ∧ unchangedBut [.dbr, .p, .sp, .pc] s t) ∧
    ∃ t, exec .pld s = .next t ∧ t.dr.toNat = s.pulled .plain 2 ∧
      t.p = s.p.withNZ .w16 t.dr.toNat ∧ spMoves s t 2 ∧ pcMoves s t 1 ∧ unchangedBut [.dr, .p, .sp, .pc] s t

/-! ## Control flow -/

/-- The nine short branches: two bytes; PC moves to the next instruction, and if the condition holds from there by the
signed offset, inside the bank; nothing else changes (R281 to R290). -/
def Obligations.ShortBranchResult : Prop :=
  ∀ (off : Byte) (c : DecodeCtx) (s : State) (i : Instr) (op : Byte) (cond : Bool),
    (i, op, cond) ∈
      [(.bcc off, 0x90, !s.p.c), (.bcs off, 0xB0, s.p.c), (.beq off, 0xF0, s.p.z), (.bne off, 0xD0, !s.p.z),
        (.bmi off, 0x30, s.p.n), (.bpl off, 0x10, !s.p.n), (.bvc off, 0x50, !s.p.v), (.bvs off, 0x70, s.p.v),
        (.bra off, 0x80, true)] →
    encode c i = [op, off] ∧
      ∃ t, exec i s = .next t ∧
        (t.pc.toNat : Int) = (s.pc.toNat + 2 + if cond then off.toInt else 0) % 65536 ∧ unchangedBut [.pc] s t

/-- BRL and the jumps: PC (and PBR, for the two long ones) from the operand or from memory, and nothing else (R291 to
R296). That the pointer of JMP `(a)` and JML wraps inside bank 0 at `$FFFF` (R76, R149) and that the sum of `(a,x)` is cut
to 16 bits (R152) are the spec's own decisions D12 and D17 (log 19). -/
def Obligations.JumpResult : Prop :=
  ∀ (addr : Half) (long : BitVec 24) (c : DecodeCtx) (s : State),
    (encode c (.brl addr) = 0x82 :: halfBytes addr ∧
      ∃ t, exec (.brl addr) s = .next t ∧ (t.pc.toNat : Int) = (s.pc.toNat + 3 + addr.toInt) % 65536 ∧
        unchangedBut [.pc] s t) ∧
    (encode c (.jmpAbs addr) = 0x4C :: halfBytes addr ∧
      ∃ t, exec (.jmpAbs addr) s = .next t ∧ t.pc = addr ∧ unchangedBut [.pc] s t) ∧
    (encode c (.jmpLong long) = 0x5C :: longBytes long ∧
      ∃ t, exec (.jmpLong long) s = .next t ∧ t.pc.toNat = long.toNat % 65536 ∧ t.pbr.toNat = long.toNat / 65536 ∧
        unchangedBut [.pc, .pbr] s t) ∧
    (encode c (.jmpAbsInd addr) = 0x6C :: halfBytes addr ∧
      ∃ t, exec (.jmpAbsInd addr) s = .next t ∧
        t.pc.toNat = littleEndian (fun k => Mem.read s.mem ((addr.toNat + k) % 65536)) 2 ∧
        unchangedBut [.pc] s t) ∧
    (encode c (.jmpAbsXInd addr) = 0x7C :: halfBytes addr ∧
      ∃ t, exec (.jmpAbsXInd addr) s = .next t ∧
        t.pc.toNat = littleEndian
          (fun k => Mem.read s.mem (s.pbr.toNat * 65536 + (addr.toNat + s.ix.toNat + k) % 65536)) 2 ∧
        unchangedBut [.pc] s t) ∧
    (encode c (.jml addr) = 0xDC :: halfBytes addr ∧
      ∃ t, exec (.jml addr) s = .next t ∧
        t.pc.toNat = littleEndian (fun k => Mem.read s.mem ((addr.toNat + k) % 65536)) 2 ∧
        t.pbr = Mem.read s.mem ((addr.toNat + 2) % 65536) ∧ unchangedBut [.pc, .pbr] s t)

/-- The calls push the address of their last byte. JSR `a` wraps in page 1 in `emu8` and keeps PBR; JSR `(a,x)` does not
wrap, keeps PBR, and the high byte of its pointer is the byte that stands at PC + 2 once the return address is pushed; JSL
does not wrap, pushes PBR first, and fetches its bank byte after that push (R83, R152, R297 to R299; that the byte is
read again is the model's reading, log 16). -/
def Obligations.SubroutineCallResult : Prop :=
  ∀ (addr : Half) (long : BitVec 24) (s : State),
    (∃ t, exec (.jsrAbs addr) s = .next t ∧
      pushedBytes s t .wrapping [halfHi (s.pc + 2), halfLo (s.pc + 2)] ∧ spMoves s t 65534 ∧ t.pc = addr ∧
      unchangedBut [.mem, .sp, .pc] s t) ∧
    (s.fetch 2 = halfHi addr →
      ∃ t, exec (.jsrAbsXInd addr) s = .next t ∧
        pushedBytes s t .plain [halfHi (s.pc + 2), halfLo (s.pc + 2)] ∧ spMoves s t 65534 ∧
        t.pc.toNat = littleEndian (fun k => Mem.read t.mem (s.pbr.toNat * 65536 +
          (addr.toNat % 256 + (Mem.read t.mem (s.phys (s.fetchAddr 2))).toNat * 256 + s.ix.toNat + k) % 65536)) 2 ∧
        unchangedBut [.mem, .sp, .pc] s t) ∧
    (s.fetch 3 = longBank long →
      ∃ t, exec (.jsl long) s = .next t ∧
        pushedBytes s t .plain [s.pbr, halfHi (s.pc + 3), halfLo (s.pc + 3)] ∧ spMoves s t 65533 ∧
        t.pc.toNat = long.toNat % 65536 ∧
        t.pbr.toNat = (if s.phys (s.fetchAddr 3) = s.sp.toNat then s.pbr.toNat else long.toNat / 65536) ∧
        unchangedBut [.mem, .sp, .pc, .pbr] s t)

/-- RTS and RTL: one byte each; PC is one above the pulled address, inside the bank; RTL pulls PBR too, without wrapping
in page 1 (R300, R301). -/
def Obligations.SubroutineReturnResult : Prop :=
  (∀ c : DecodeCtx, encode c .rts = [0x60] ∧ encode c .rtl = [0x6B]) ∧
  ∀ s : State,
    (∃ t, exec .rts s = .next t ∧
      t.pc.toNat = (s.pulled .wrapping 2 + 1) % 65536 ∧ spMoves s t 2 ∧
      unchangedBut [.pc, .sp] s t) ∧
    ∃ t, exec .rtl s = .next t ∧
      t.pc.toNat = (s.pulled .plain 2 + 1) % 65536 ∧
      t.pbr = s.pulledByte .plain 3 ∧ spMoves s t 3 ∧ unchangedBut [.pc, .pbr, .sp] s t

/-- A call and its return: RTS after JSR `a` comes back to the instruction after the call with S as before, and RTL after
JSL, outside `emu8`, does so with PBR as before (R280 (e), R297, R299 to R301). -/
def Obligations.CallThenReturn : Prop :=
  ∀ (s : State), s.Inv →
    (∀ (addr : Half) (t : State), exec (.jsrAbs addr) s = .next t →
      ∃ u, exec .rts t = .next u ∧ u.pc = s.pc + 3 ∧ unchangedBut [.mem, .pc] s u) ∧
    (s.emu8 = false → ∀ (long : BitVec 24) (t : State), exec (.jsl long) s = .next t →
      ∃ u, exec .rtl t = .next u ∧ u.pc = s.pc + 4 ∧ unchangedBut [.mem, .pc] s u)

/-! ## Flags and modes -/

/-- CLC SEC CLD SED CLI SEI CLV: one byte, one flag, nothing else (R310 to R317). -/
def Obligations.FlagInstructionResult : Prop :=
  ∀ (c : DecodeCtx) (s : State) (i : Instr) (op : Byte) (p : Status),
    (i, op, p) ∈
      [(.clc, 0x18, { s.p with c := false }), (.sec, 0x38, { s.p with c := true }),
        (.cld, 0xD8, { s.p with d := false }), (.sed, 0xF8, { s.p with d := true }),
        (.cli, 0x58, { s.p with i := false }), (.sei, 0x78, { s.p with i := true }),
        (.clv, 0xB8, { s.p with v := false })] →
    encode c i = [op] ∧ ∃ t, exec i s = .next t ∧ t.p = p ∧ pcMoves s t 1 ∧ unchangedBut [.p, .pc] s t

/-- REP clears and SEP sets the flags whose mask bit is 1, but for M and Xf in `emu8`, where they are 1; then the index
high bytes follow Xf (R318 to R320). -/
def Obligations.StatusMaskResult : Prop :=
  ∀ (k : Byte) (s : State) (i : Instr) (f : Nat → Bool → Bool),
    (i = .rep k ∧ f = fun b old => old && !k.getLsbD b) ∨ (i = .sep k ∧ f = fun b old => old || k.getLsbD b) →
    ∃ t, exec i s = .next t ∧
      t.p =
        { n := f 7 s.p.n, v := f 6 s.p.v, m := s.emu8 || f 5 s.p.m, x := s.emu8 || f 4 s.p.x, d := f 3 s.p.d
          i := f 2 s.p.i, z := f 1 s.p.z, c := f 0 s.p.c } ∧
      indexForced s t ∧ stackForced s t ∧ pcMoves s t 2 ∧ unchangedBut [.p, .x, .y, .sp, .pc] s t

/-- XCE exchanges C and E8; XFE at once C and E8, and V and E16. A step that ends in `emu8` sets M, Xf and SH; the index
high bytes follow Xf; where XFE widens the index from 16 to 32 bits, the low halves of X and Y are kept and the high
halves are as `IDX_HIGH_DRAW` says, by default free (R320 to R322, R27, R37, log 12). -/
def Obligations.ModeExchangeResult : Prop :=
  ∀ s : State,
    (∃ t, exec .xce s = .next t ∧ t.e8 = s.p.c ∧ t.e16 = s.e16 ∧
      t.p = { s.p with c := s.e8, m := s.p.m || (s.e16 && s.p.c), x := s.p.x || (s.e16 && s.p.c) } ∧
      indexForced s t ∧ stackForced s t ∧ pcMoves s t 1 ∧ unchangedBut [.p, .modes, .x, .y, .sp, .pc] s t) ∧
    ∃ t, exec .xfe s = .next t ∧ t.e8 = s.p.c ∧ t.e16 = s.p.v ∧
      t.p =
        { s.p with
          c := s.e8, v := s.e16, m := s.p.m || (s.p.v && s.p.c), x := s.p.x || (s.p.v && s.p.c) } ∧
      (if s.e16 = true ∧ s.p.v = false ∧ s.p.x = false then
        t.x.toNat % 65536 = s.x.toNat % 65536 ∧ t.y.toNat % 65536 = s.y.toNat % 65536 ∧
          (s.cfg.idxHigh = .zero → t.x.toNat < 65536 ∧ t.y.toNat < 65536) ∧
          (s.cfg.idxHigh = .preserved → t.x = s.x ∧ t.y = s.y)
      else indexForced s t ∧ t.freeIdx = s.freeIdx) ∧
      stackForced s t ∧ pcMoves s t 1 ∧ unchangedBut [.p, .modes, .x, .y, .sp, .pc, .free] s t

/-! ## Block moves and system instructions -/

/-- One step of MVN or MVP: a byte is copied, X and Y move by one up or down, the 16-bit count goes down by one (at 0 as
`MV_FINAL_C` says), DBR is the destination bank outside native mode, and PC moves past the instruction only with the
byte whose count is 0 (R331 to R338). -/
def Obligations.BlockMoveStepResult : Prop :=
  ∀ (b : BlockBanks) (s : State) (i : Instr) (k : Nat),
    (i = .mvn b ∧ k = 1) ∨ (i = .mvp b ∧ k = 2 ^ s.xw.bits - 1) →
    let count := s.a.toNat % 65536
    let src := match b with
      | .native => s.ix.toNat
      | .banks _ bank => bank.toNat * 65536 + s.ix.toNat % 65536
    let dst := match b with
      | .native => s.iy.toNat
      | .banks bank _ => bank.toNat * 65536 + s.iy.toNat % 65536
    let space := 2 ^ s.cfg.addrBits.bits
    ∃ t, exec i s = .next t ∧ Mem.read t.mem (dst % space) = Mem.read s.mem (src % space) ∧
      (∀ a, a ≠ dst % space → Mem.read t.mem a = Mem.read s.mem a) ∧
      writesLow s.xw s.x (s.x.toNat + k) t.x ∧ writesLow s.xw s.y (s.y.toNat + k) t.y ∧
      writesLow .w16 s.a (if count = 0 ∧ s.cfg.mvFinalC = .zero then 0 else count + 65535) t.a ∧
      t.dbr = (match b with
        | .native => s.dbr
        | .banks bank _ => bank) ∧
      pcMoves s t (if count = 0 then (match b with
        | .native => 1
        | .banks _ _ => 3) else 0) ∧
      unchangedBut [.mem, .x, .y, .a, .dbr, .pc] s t

/-- BRK and COP take the interrupt sequence with the address after the signature, Break set, and their vectors; the
signature plays no part (R340, R341, R368, R370). -/
def Obligations.SoftwareInterruptResult : Prop :=
  ∀ (sig : Byte) (s : State),
    (∃ t, exec (.brk sig) s = .next t ∧ entersHandler s t (s.pc + 2) true 0xFFFE 0xFFE6 0xFFD6 ∧
      unchangedBut [.mem, .sp, .p, .pbr, .dbr, .pc, .run] s t) ∧
    ∃ t, exec (.cop sig) s = .next t ∧ entersHandler s t (s.pc + 2) true 0xFFF4 0xFFE4 0xFFD4 ∧
      unchangedBut [.mem, .sp, .p, .pbr, .dbr, .pc, .run] s t

/-- RTI pulls P, then PC, and outside `emu8` PBR; DBR, D, A and the mode bits are not restored (R342, R385). -/
def Obligations.ReturnFromInterruptResult : Prop :=
  ∀ s : State, ∃ t, exec .rti s = .next t ∧ t.p = s.statusPulled (s.pulledByte .wrapping 1) ∧
    t.pc.toNat = littleEndian (fun k => s.pulledByte .wrapping (k + 2)) 2 ∧
    t.pbr = (if s.emu8 then s.pbr else s.pulledByte .wrapping 4) ∧ indexForced s t ∧
    spMoves s t (if s.emu8 then 3 else 4) ∧ unchangedBut [.p, .pc, .pbr, .x, .y, .sp] s t

/-- An interrupt and its RTI: from a state that meets the invariant, whatever the source, RTI right after the entry
restores P, PC at the return address, and S; outside `emu8` everything but memory, PC and the run state is as before
(R370, R374, R385). -/
def Obligations.InterruptThenReturn : Prop :=
  ∀ (src : IntSource) (ret : Half) (brk : Bool) (s : State), s.Inv →
    ∃ u, exec .rti (s.interrupt src ret brk) = .next u ∧ u.pc = ret ∧
      unchangedBut ([.mem, .pc, .run] ++ if s.emu8 then [.pbr, .dbr] else []) s u

/-- WAI waits and STP stops, each after moving PC past itself; NOP moves PC by 1 and WDM by 2; nothing else changes
(R343 to R346). -/
def Obligations.IdleInstructionResult : Prop :=
  ∀ (s : State) (skipped : Byte),
    (∃ t, exec .wai s = .next t ∧ t.run = .waiting ∧ pcMoves s t 1 ∧ unchangedBut [.run, .pc] s t) ∧
    (∃ t, exec .stp s = .next t ∧ t.run = .stopped ∧ pcMoves s t 1 ∧ unchangedBut [.run, .pc] s t) ∧
    (∃ t, exec .nop s = .next t ∧ pcMoves s t 1 ∧ unchangedBut [.pc] s t) ∧
    ∃ t, exec (.wdm skipped) s = .next t ∧ pcMoves s t 2 ∧ unchangedBut [.pc] s t

/-! ## Interrupts, waiting, reset, abort -/

/-- The hardware interrupts in priority order, at a boundary without reset or ABORT-, of a processor that is not
stopped: ABORT if it is latched, else NMI if it is latched or its edge comes now, else IRQ if its line is low and I is
0; each clears its latch and enters its handler with PC as the return address and Break clear (R364 to R368, R370,
R371). -/
def Obligations.HardwareInterruptStep : Prop :=
  ∀ s : State, (currentInputs s).res = .inactive → (currentInputs s).abort = false → s.run ≠ .stopped →
    let pieces : List Piece := [.mem, .sp, .p, .pbr, .dbr, .pc, .run, .inputs]
    let nmi := s.nmiPending || (currentInputs s).nmiEdge
    (s.abortPending = true →
      ∃ t, step s = .next t ∧ entersHandler s t s.pc false 0xFFF8 0xFFE8 0xFFD8 ∧ t.abortPending = false ∧
        t.nmiPending = nmi ∧ unchangedBut (.nmi :: .abort :: pieces) s t) ∧
    (s.abortPending = false → nmi = true →
      ∃ t, step s = .next t ∧ entersHandler s t s.pc false 0xFFFA 0xFFEA 0xFFDA ∧ t.nmiPending = false ∧
        unchangedBut (.nmi :: pieces) s t) ∧
    (s.abortPending = false → nmi = false → (currentInputs s).irq = true → s.p.i = false →
      ∃ t, step s = .next t ∧ entersHandler s t s.pc false 0xFFFE 0xFFEE 0xFFDE ∧ unchangedBut pieces s t)

/-- A stopped processor ignores every input but RES-: nothing changes and no NMI- edge is latched (R344, R391). A
waiting processor with nothing latched idles while IRQ- is high, an abort moving PC back by one (R381, log 10); with
IRQ- low and masked it wakes and runs the instruction at PC (R343, R367 (6), R390). The list of inputs and the bus
record are the model's choice (log 8, log 15). -/
def Obligations.StoppedAndWaitingSteps : Prop :=
  ∀ s : State, (currentInputs s).res = .inactive →
    (s.run = .stopped → ∃ t, step s = .next t ∧ unchangedBut [.inputs] s t) ∧
    (s.run = .waiting → noneLatched s → (currentInputs s).nmiEdge = false → (currentInputs s).irq = false →
      ∃ t, step s = .next t ∧
        t.pc = (if (currentInputs s).abort = true ∧ s.cfg.abortModel = .precise then s.pc - 1 else s.pc) ∧
        unchangedBut [.pc, .inputs] s t) ∧
    (s.run = .waiting → noneLatched s → calm s → (currentInputs s).irq = true →
      ∀ (i : Instr) (tail : List Byte),
        decode s.ctx [s.fetch 0, s.fetch 1, s.fetch 2, s.fetch 3, s.fetch 4] = .ok (i, tail) →
        step s =
          exec i (State.noteFetches (fetchedFirst i) (((s.setInputs s.inputs.tail).setBus []).setRun .running)))

/-- Reset, in every run state and at every moment: the registers that it initialises, PC from its vector, no memory
change at a boundary (R410, R411). What it does not initialise is the given constant where `RESET_DRAW` gives one, and is
as before where `RESET_DRAW` is "preserve": S's low byte as vector RS1 has it, not moved by the 3 of R411's parenthesis
(log 24), and after a reset in the middle of a step as before that step (log 25): both the model's choice. Under "draw" it
is free and no clause constrains it. A reset in the middle of a step leaves each byte of memory as it was or as the
abandoned step would have left it (R414, log 11). -/
def Obligations.ResetStep : Prop :=
  ∀ s : State, (currentInputs s).res ≠ .inactive →
    ∃ t, step s = .next t ∧ t.dr = 0 ∧ t.dbr = 0 ∧ t.pbr = 0 ∧ halfHi t.sp = 0x01 ∧ t.x.toNat < 256 ∧
      t.y.toNat < 256 ∧ t.p.m = true ∧ t.p.x = true ∧ t.p.d = false ∧ t.p.i = true ∧ t.e8 = true ∧ t.e16 = true ∧
      t.run = .running ∧ t.nmiPending = false ∧ t.abortPending = false ∧ t.cfg = s.cfg ∧
      t.pc.toNat = (Mem.read t.mem 0xFFFC).toNat + 256 * (Mem.read t.mem 0xFFFD).toNat ∧
      (∀ u : Uninit, s.cfg.resetDraw = .const u →
        t.a = u.a ∧ halfLo t.sp = u.sl ∧ lowByte t.x = u.xl ∧ lowByte t.y = u.yl ∧
          t.p.n = u.n ∧ t.p.v = u.v ∧ t.p.z = u.z ∧ t.p.c = u.c) ∧
      (s.cfg.resetDraw = .preserve →
        t.a = s.a ∧ halfLo t.sp = halfLo s.sp ∧ lowByte t.x = lowByte s.x ∧ lowByte t.y = lowByte s.y ∧
          t.p.n = s.p.n ∧ t.p.v = s.p.v ∧ t.p.z = s.p.z ∧ t.p.c = s.p.c) ∧
      ((currentInputs s).res = .atBoundary → ∀ a, Mem.read t.mem a = Mem.read s.mem a) ∧
      ((currentInputs s).res = .midStep →
        ∃ u, step (s.setInputs ({ currentInputs s with res := .inactive, abort := false } :: s.inputs.tail)) = .next u ∧
          ∀ a, Mem.read t.mem a = Mem.read s.mem a ∨ Mem.read t.mem a = Mem.read u.mem a)

/-- An aborted instruction under the precise model: it changes no register, flag, mode bit or latch but
`abort_pending`, which is set, and each byte of memory is as it was or as the instruction would have left it (R378,
log 9). -/
def Obligations.AbortedInstructionStep : Prop :=
  ∀ (s : State), s.cfg.abortModel = .precise → (currentInputs s).abort = true →
    (currentInputs s).res = .inactive → (currentInputs s).nmiEdge = false →
    ((currentInputs s).irq = true → s.p.i = true) → noneLatched s → s.run = .running →
    ∃ t u, step s = .next t ∧
      step (s.setInputs ({ currentInputs s with abort := false } :: s.inputs.tail)) = .next u ∧
      t.abortPending = true ∧ unchangedBut [.abort, .mem, .inputs, .free] s t ∧
      ∀ a, Mem.read t.mem a = Mem.read s.mem a ∨ Mem.read t.mem a = Mem.read u.mem a

/-! ## The assembler -/

/-- What a mnemonic and an operand assemble to is well-formed in the context: an immediate has the width in force, a
block move has its bank bytes outside native mode only, and XFE needs an opcode (R103, R107, R117, R118, R122,
log 23). -/
def Obligations.AssemblerRespectsWidths : Prop :=
  ∀ (c : DecodeCtx) (pc : Half) (m : Mnemonic) (o : AsmOperand) (i : Instr),
    assemble c pc m o = some i → i.wf c = true
end

