-- ==== Sys2Proof/Laws/Bits.lean ====
section
/-! SUPPORT. The bit-field helpers as arithmetic on numbers: one lemma for what each of them computes. -/

namespace Sys2Proof

/-- Two numbers that occupy different bits: their bitwise or is their sum. -/
theorem or_shiftLeft_eq (hi lo k : Nat) (h : lo < 2 ^ k) : hi <<< k ||| lo = hi * 2 ^ k + lo := by
  rw [← Nat.shiftLeft_add_eq_or_of_lt h, Nat.shiftLeft_eq]

theorem or_mul_eq (hi lo k : Nat) (h : lo < 2 ^ k) : hi * 2 ^ k ||| lo = hi * 2 ^ k + lo := by
  rw [← Nat.shiftLeft_eq, or_shiftLeft_eq hi lo k h, Nat.shiftLeft_eq]

theorem Width.trunc_toNat (w : Width) (v : Word) : (w.trunc v).toNat = v.toNat % 2 ^ w.bits := by
  cases w
  · exact (BitVec.toNat_and ..).trans (Nat.and_two_pow_sub_one_eq_mod v.toNat 8)
  · exact (BitVec.toNat_and ..).trans (Nat.and_two_pow_sub_one_eq_mod v.toNat 16)
  · exact (Nat.mod_eq_of_lt v.isLt).symm

/-- The two halves of a masked merge, as one number. -/
theorem merge_toNat (k : Nat) (hk : k ≤ 32) (old new : Nat) (ho : old < 2 ^ 32) :
    (old &&& (2 ^ 32 - 2 ^ k)) ||| (new &&& (2 ^ k - 1)) = old / 2 ^ k * 2 ^ k + new % 2 ^ k := by
  rw [Nat.and_two_pow_sub_one_eq_mod, ← or_shiftLeft_eq _ _ _ (Nat.mod_lt _ (Nat.two_pow_pos k))]
  congr 1
  apply Nat.eq_of_testBit_eq
  intro i
  have hm : (2 ^ 32 - 2 ^ k : Nat) = (2 ^ (32 - k) - 1) <<< k := by
    rw [Nat.shiftLeft_eq, Nat.sub_mul, ← Nat.pow_add, Nat.sub_add_cancel hk, Nat.one_mul]
  rw [hm, Nat.testBit_and, Nat.testBit_shiftLeft, Nat.testBit_shiftLeft, Nat.testBit_two_pow_sub_one,
    Nat.testBit_div_two_pow]
  by_cases h : k ≤ i
  · have : k + (i - k) = i := by omega
    by_cases h2 : i < 32
    · have : i - k < 32 - k := by omega
      simp [*]
    · have : old.testBit i = false := Nat.testBit_lt_two_pow (Nat.lt_of_lt_of_le ho (Nat.pow_le_pow_right (by omega) (by omega)))
      simp [*]
  · simp [h]

theorem Width.merge_toNat (w : Width) (old new : Word) :
    (w.merge old new).toNat = old.toNat / 2 ^ w.bits * 2 ^ w.bits + new.toNat % 2 ^ w.bits := by
  cases w
  · exact (BitVec.toNat_or ..).trans (Sys2Proof.merge_toNat 8 (by omega) old.toNat new.toNat old.isLt)
  · exact (BitVec.toNat_or ..).trans (Sys2Proof.merge_toNat 16 (by omega) old.toNat new.toNat old.isLt)
  · have h1 := old.isLt
    have h2 := new.isLt
    simp only [Width.merge, Width.bits]
    omega

theorem Width.merge_mod (w : Width) (old new : Word) :
    (w.merge old new).toNat % 2 ^ w.bits = new.toNat % 2 ^ w.bits := by
  rw [Width.merge_toNat, Nat.mul_add_mod_self_right, Nat.mod_mod]

theorem Width.merge_div (w : Width) (old new : Word) :
    (w.merge old new).toNat / 2 ^ w.bits = old.toNat / 2 ^ w.bits := by
  rw [Width.merge_toNat, Nat.mul_comm, Nat.mul_add_div (Nat.two_pow_pos _),
    Nat.div_eq_of_lt (Nat.mod_lt _ (Nat.two_pow_pos _)), Nat.add_zero]

theorem Width.bits_eq (w : Width) : w.bits = 8 * w.bytes := by cases w <;> rfl

theorem Width.bytes_le (w : Width) : w.bytes ≤ 4 := by cases w <;> decide

theorem Width.pow_bits (w : Width) : 2 ^ w.bits = 256 ^ w.bytes := by cases w <;> rfl

theorem Width.trunc_lt (w : Width) (v : Word) : (w.trunc v).toNat < 2 ^ w.bits := by
  rw [Width.trunc_toNat]; exact Nat.mod_lt _ (Nat.two_pow_pos _)

namespace Machine

theorem byteOf_toNat (v : Word) (k : Nat) : (byteOf v k).toNat = v.toNat / 256 ^ k % 256 := by
  rw [byteOf, BitVec.toNat_setWidth, BitVec.toNat_ushiftRight, Nat.shiftRight_eq_div_pow, Nat.pow_mul]

@[simp] theorem zextByte_toNat (b : Byte) : (zextByte b).toNat = b.toNat := by
  have := b.isLt
  rw [zextByte, BitVec.toNat_setWidth]; omega

@[simp] theorem zextHalf_toNat (h : Half) : (zextHalf h).toNat = h.toNat := by
  have := h.isLt
  rw [zextHalf, BitVec.toNat_setWidth]; omega

@[simp] theorem zextLong_toNat (l : BitVec 24) : (zextLong l).toNat = l.toNat := by
  have := l.isLt
  rw [zextLong, BitVec.toNat_setWidth]; omega

@[simp] theorem lowHalf_toNat (v : Word) : (lowHalf v).toNat = v.toNat % 65536 := BitVec.toNat_setWidth ..

@[simp] theorem lowByte_toNat (v : Word) : (lowByte v).toNat = v.toNat % 256 := BitVec.toNat_setWidth ..

@[simp] theorem halfLo_toNat (h : Half) : (halfLo h).toNat = h.toNat % 256 := BitVec.toNat_setWidth ..

@[simp] theorem halfHi_toNat (h : Half) : (halfHi h).toNat = h.toNat / 256 := by
  have := h.isLt
  rw [halfHi, BitVec.toNat_setWidth, BitVec.toNat_ushiftRight, Nat.shiftRight_eq_div_pow]; omega

@[simp] theorem joinBytes_toNat (hi lo : Byte) : (joinBytes hi lo).toNat = hi.toNat * 256 + lo.toNat := by
  have h1 := hi.isLt
  have h2 := lo.isLt
  rw [joinBytes, BitVec.toNat_or, BitVec.toNat_shiftLeft, BitVec.toNat_setWidth, BitVec.toNat_setWidth,
    Nat.mod_eq_of_lt (a := hi.toNat) (by omega), Nat.mod_eq_of_lt (a := lo.toNat) (by omega), Nat.shiftLeft_eq,
    Nat.mod_eq_of_lt (by omega), or_mul_eq _ _ _ h2]; omega

@[simp] theorem bankAddr_toNat (bank : Byte) (off : Half) :
    (bankAddr bank off).toNat = bank.toNat * 65536 + off.toNat := by
  have h1 := bank.isLt
  have h2 := off.isLt
  rw [bankAddr, BitVec.toNat_or, BitVec.toNat_shiftLeft, BitVec.toNat_setWidth, BitVec.toNat_setWidth,
    Nat.mod_eq_of_lt (a := bank.toNat) (by omega), Nat.mod_eq_of_lt (a := off.toNat) (by omega), Nat.shiftLeft_eq,
    Nat.mod_eq_of_lt (by omega), or_mul_eq _ _ _ h2]; omega

@[simp] theorem low24_toNat (a : Word) : (low24 a).toNat = a.toNat % 2 ^ 24 :=
  (BitVec.toNat_and ..).trans (Nat.and_two_pow_sub_one_eq_mod a.toNat 24)

@[simp] theorem longOff_toNat (l : BitVec 24) : (longOff l).toNat = l.toNat % 65536 := BitVec.toNat_setWidth ..

@[simp] theorem longBank_toNat (l : BitVec 24) : (longBank l).toNat = l.toNat / 65536 := by
  have := l.isLt
  rw [longBank, BitVec.toNat_setWidth, BitVec.toNat_ushiftRight, Nat.shiftRight_eq_div_pow]; omega

@[simp] theorem joinBytes_halfHi_halfLo (h : Half) : joinBytes (halfHi h) (halfLo h) = h := by
  apply BitVec.eq_of_toNat_eq
  have := h.isLt
  rw [joinBytes_toNat, halfHi_toNat, halfLo_toNat]; omega

@[simp] theorem halfHi_joinBytes (hi lo : Byte) : halfHi (joinBytes hi lo) = hi := by
  apply BitVec.eq_of_toNat_eq
  have := lo.isLt
  rw [halfHi_toNat, joinBytes_toNat]; omega

@[simp] theorem halfLo_joinBytes (hi lo : Byte) : halfLo (joinBytes hi lo) = lo := by
  apply BitVec.eq_of_toNat_eq
  have := lo.isLt
  rw [halfLo_toNat, joinBytes_toNat]; omega

@[simp] theorem lowHalf_zextHalf (h : Half) : lowHalf (zextHalf h) = h := by
  apply BitVec.eq_of_toNat_eq
  have := h.isLt
  rw [lowHalf_toNat, zextHalf_toNat]; omega

theorem byteOf_zextHalf_zero (h : Half) : byteOf (zextHalf h) 0 = halfLo h := by
  apply BitVec.eq_of_toNat_eq
  rw [byteOf_toNat, zextHalf_toNat, halfLo_toNat]; omega

theorem byteOf_zextHalf_one (h : Half) : byteOf (zextHalf h) 1 = halfHi h := by
  apply BitVec.eq_of_toNat_eq
  have := h.isLt
  rw [byteOf_toNat, zextHalf_toNat, halfHi_toNat]; omega

/-- Bytes below the width do not see the bits above it. -/
theorem byteOf_trunc (w : Width) (v : Word) {k : Nat} (h : k < w.bytes) : byteOf (w.trunc v) k = byteOf v k := by
  apply BitVec.eq_of_toNat_eq
  rw [byteOf_toNat, byteOf_toNat, Width.trunc_toNat, Width.pow_bits]
  generalize v.toNat = n
  cases w <;> simp only [Width.bytes] at h ⊢
  · obtain rfl : k = 0 := by omega
    omega
  · obtain rfl | rfl : k = 0 ∨ k = 1 := by omega
    · omega
    · omega
  · obtain rfl | rfl | rfl | rfl : k = 0 ∨ k = 1 ∨ k = 2 ∨ k = 3 := by omega
    all_goals omega

end Machine

/-! ## Fields of an instruction -/

theorem half2_toNat (lo hi : Byte) : (half2 lo hi).toNat = lo.toNat + hi.toNat * 256 := by
  have h1 := hi.isLt
  have h2 := lo.isLt
  rw [half2, BitVec.toNat_or, BitVec.toNat_shiftLeft, BitVec.toNat_setWidth, BitVec.toNat_setWidth,
    Nat.mod_eq_of_lt (a := hi.toNat) (by omega), Nat.mod_eq_of_lt (a := lo.toNat) (by omega), Nat.shiftLeft_eq,
    Nat.mod_eq_of_lt (by omega), Nat.or_comm, or_mul_eq _ _ _ h2, Nat.add_comm]; omega

end Sys2Proof
end

