-- ==== Sys2Proof/Laws/State.lean ====
section
/-! SUPPORT. What each plain update of `State` does to each field: one lemma per field per update, true by `rfl`. -/

namespace Sys2Proof.Machine

@[simp] theorem State.setA_a (v : Word) (s : State) : (s.setA v).a = v := rfl
@[simp] theorem State.setA_x (v : Word) (s : State) : (s.setA v).x = s.x := rfl
@[simp] theorem State.setA_y (v : Word) (s : State) : (s.setA v).y = s.y := rfl
@[simp] theorem State.setA_sp (v : Word) (s : State) : (s.setA v).sp = s.sp := rfl
@[simp] theorem State.setA_dr (v : Word) (s : State) : (s.setA v).dr = s.dr := rfl
@[simp] theorem State.setA_pc (v : Word) (s : State) : (s.setA v).pc = s.pc := rfl
@[simp] theorem State.setA_pbr (v : Word) (s : State) : (s.setA v).pbr = s.pbr := rfl
@[simp] theorem State.setA_dbr (v : Word) (s : State) : (s.setA v).dbr = s.dbr := rfl
@[simp] theorem State.setA_p (v : Word) (s : State) : (s.setA v).p = s.p := rfl
@[simp] theorem State.setA_e8 (v : Word) (s : State) : (s.setA v).e8 = s.e8 := rfl
@[simp] theorem State.setA_e16 (v : Word) (s : State) : (s.setA v).e16 = s.e16 := rfl
@[simp] theorem State.setA_run (v : Word) (s : State) : (s.setA v).run = s.run := rfl
@[simp] theorem State.setA_nmiPending (v : Word) (s : State) : (s.setA v).nmiPending = s.nmiPending := rfl
@[simp] theorem State.setA_abortPending (v : Word) (s : State) : (s.setA v).abortPending = s.abortPending := rfl
@[simp] theorem State.setA_mem (v : Word) (s : State) : (s.setA v).mem = s.mem := rfl
@[simp] theorem State.setA_cfg (v : Word) (s : State) : (s.setA v).cfg = s.cfg := rfl
@[simp] theorem State.setA_inputs (v : Word) (s : State) : (s.setA v).inputs = s.inputs := rfl
@[simp] theorem State.setA_bus (v : Word) (s : State) : (s.setA v).bus = s.bus := rfl
@[simp] theorem State.setA_freeIdx (v : Word) (s : State) : (s.setA v).freeIdx = s.freeIdx := rfl

@[simp] theorem State.setX_a (v : Word) (s : State) : (s.setX v).a = s.a := rfl
@[simp] theorem State.setX_x (v : Word) (s : State) : (s.setX v).x = v := rfl
@[simp] theorem State.setX_y (v : Word) (s : State) : (s.setX v).y = s.y := rfl
@[simp] theorem State.setX_sp (v : Word) (s : State) : (s.setX v).sp = s.sp := rfl
@[simp] theorem State.setX_dr (v : Word) (s : State) : (s.setX v).dr = s.dr := rfl
@[simp] theorem State.setX_pc (v : Word) (s : State) : (s.setX v).pc = s.pc := rfl
@[simp] theorem State.setX_pbr (v : Word) (s : State) : (s.setX v).pbr = s.pbr := rfl
@[simp] theorem State.setX_dbr (v : Word) (s : State) : (s.setX v).dbr = s.dbr := rfl
@[simp] theorem State.setX_p (v : Word) (s : State) : (s.setX v).p = s.p := rfl
@[simp] theorem State.setX_e8 (v : Word) (s : State) : (s.setX v).e8 = s.e8 := rfl
@[simp] theorem State.setX_e16 (v : Word) (s : State) : (s.setX v).e16 = s.e16 := rfl
@[simp] theorem State.setX_run (v : Word) (s : State) : (s.setX v).run = s.run := rfl
@[simp] theorem State.setX_nmiPending (v : Word) (s : State) : (s.setX v).nmiPending = s.nmiPending := rfl
@[simp] theorem State.setX_abortPending (v : Word) (s : State) : (s.setX v).abortPending = s.abortPending := rfl
@[simp] theorem State.setX_mem (v : Word) (s : State) : (s.setX v).mem = s.mem := rfl
@[simp] theorem State.setX_cfg (v : Word) (s : State) : (s.setX v).cfg = s.cfg := rfl
@[simp] theorem State.setX_inputs (v : Word) (s : State) : (s.setX v).inputs = s.inputs := rfl
@[simp] theorem State.setX_bus (v : Word) (s : State) : (s.setX v).bus = s.bus := rfl
@[simp] theorem State.setX_freeIdx (v : Word) (s : State) : (s.setX v).freeIdx = s.freeIdx := rfl

@[simp] theorem State.setY_a (v : Word) (s : State) : (s.setY v).a = s.a := rfl
@[simp] theorem State.setY_x (v : Word) (s : State) : (s.setY v).x = s.x := rfl
@[simp] theorem State.setY_y (v : Word) (s : State) : (s.setY v).y = v := rfl
@[simp] theorem State.setY_sp (v : Word) (s : State) : (s.setY v).sp = s.sp := rfl
@[simp] theorem State.setY_dr (v : Word) (s : State) : (s.setY v).dr = s.dr := rfl
@[simp] theorem State.setY_pc (v : Word) (s : State) : (s.setY v).pc = s.pc := rfl
@[simp] theorem State.setY_pbr (v : Word) (s : State) : (s.setY v).pbr = s.pbr := rfl
@[simp] theorem State.setY_dbr (v : Word) (s : State) : (s.setY v).dbr = s.dbr := rfl
@[simp] theorem State.setY_p (v : Word) (s : State) : (s.setY v).p = s.p := rfl
@[simp] theorem State.setY_e8 (v : Word) (s : State) : (s.setY v).e8 = s.e8 := rfl
@[simp] theorem State.setY_e16 (v : Word) (s : State) : (s.setY v).e16 = s.e16 := rfl
@[simp] theorem State.setY_run (v : Word) (s : State) : (s.setY v).run = s.run := rfl
@[simp] theorem State.setY_nmiPending (v : Word) (s : State) : (s.setY v).nmiPending = s.nmiPending := rfl
@[simp] theorem State.setY_abortPending (v : Word) (s : State) : (s.setY v).abortPending = s.abortPending := rfl
@[simp] theorem State.setY_mem (v : Word) (s : State) : (s.setY v).mem = s.mem := rfl
@[simp] theorem State.setY_cfg (v : Word) (s : State) : (s.setY v).cfg = s.cfg := rfl
@[simp] theorem State.setY_inputs (v : Word) (s : State) : (s.setY v).inputs = s.inputs := rfl
@[simp] theorem State.setY_bus (v : Word) (s : State) : (s.setY v).bus = s.bus := rfl
@[simp] theorem State.setY_freeIdx (v : Word) (s : State) : (s.setY v).freeIdx = s.freeIdx := rfl

@[simp] theorem State.setSp_a (v : Half) (s : State) : (s.setSp v).a = s.a := rfl
@[simp] theorem State.setSp_x (v : Half) (s : State) : (s.setSp v).x = s.x := rfl
@[simp] theorem State.setSp_y (v : Half) (s : State) : (s.setSp v).y = s.y := rfl
@[simp] theorem State.setSp_sp (v : Half) (s : State) : (s.setSp v).sp = v := rfl
@[simp] theorem State.setSp_dr (v : Half) (s : State) : (s.setSp v).dr = s.dr := rfl
@[simp] theorem State.setSp_pc (v : Half) (s : State) : (s.setSp v).pc = s.pc := rfl
@[simp] theorem State.setSp_pbr (v : Half) (s : State) : (s.setSp v).pbr = s.pbr := rfl
@[simp] theorem State.setSp_dbr (v : Half) (s : State) : (s.setSp v).dbr = s.dbr := rfl
@[simp] theorem State.setSp_p (v : Half) (s : State) : (s.setSp v).p = s.p := rfl
@[simp] theorem State.setSp_e8 (v : Half) (s : State) : (s.setSp v).e8 = s.e8 := rfl
@[simp] theorem State.setSp_e16 (v : Half) (s : State) : (s.setSp v).e16 = s.e16 := rfl
@[simp] theorem State.setSp_run (v : Half) (s : State) : (s.setSp v).run = s.run := rfl
@[simp] theorem State.setSp_nmiPending (v : Half) (s : State) : (s.setSp v).nmiPending = s.nmiPending := rfl
@[simp] theorem State.setSp_abortPending (v : Half) (s : State) : (s.setSp v).abortPending = s.abortPending := rfl
@[simp] theorem State.setSp_mem (v : Half) (s : State) : (s.setSp v).mem = s.mem := rfl
@[simp] theorem State.setSp_cfg (v : Half) (s : State) : (s.setSp v).cfg = s.cfg := rfl
@[simp] theorem State.setSp_inputs (v : Half) (s : State) : (s.setSp v).inputs = s.inputs := rfl
@[simp] theorem State.setSp_bus (v : Half) (s : State) : (s.setSp v).bus = s.bus := rfl
@[simp] theorem State.setSp_freeIdx (v : Half) (s : State) : (s.setSp v).freeIdx = s.freeIdx := rfl

@[simp] theorem State.setDr_a (v : Half) (s : State) : (s.setDr v).a = s.a := rfl
@[simp] theorem State.setDr_x (v : Half) (s : State) : (s.setDr v).x = s.x := rfl
@[simp] theorem State.setDr_y (v : Half) (s : State) : (s.setDr v).y = s.y := rfl
@[simp] theorem State.setDr_sp (v : Half) (s : State) : (s.setDr v).sp = s.sp := rfl
@[simp] theorem State.setDr_dr (v : Half) (s : State) : (s.setDr v).dr = v := rfl
@[simp] theorem State.setDr_pc (v : Half) (s : State) : (s.setDr v).pc = s.pc := rfl
@[simp] theorem State.setDr_pbr (v : Half) (s : State) : (s.setDr v).pbr = s.pbr := rfl
@[simp] theorem State.setDr_dbr (v : Half) (s : State) : (s.setDr v).dbr = s.dbr := rfl
@[simp] theorem State.setDr_p (v : Half) (s : State) : (s.setDr v).p = s.p := rfl
@[simp] theorem State.setDr_e8 (v : Half) (s : State) : (s.setDr v).e8 = s.e8 := rfl
@[simp] theorem State.setDr_e16 (v : Half) (s : State) : (s.setDr v).e16 = s.e16 := rfl
@[simp] theorem State.setDr_run (v : Half) (s : State) : (s.setDr v).run = s.run := rfl
@[simp] theorem State.setDr_nmiPending (v : Half) (s : State) : (s.setDr v).nmiPending = s.nmiPending := rfl
@[simp] theorem State.setDr_abortPending (v : Half) (s : State) : (s.setDr v).abortPending = s.abortPending := rfl
@[simp] theorem State.setDr_mem (v : Half) (s : State) : (s.setDr v).mem = s.mem := rfl
@[simp] theorem State.setDr_cfg (v : Half) (s : State) : (s.setDr v).cfg = s.cfg := rfl
@[simp] theorem State.setDr_inputs (v : Half) (s : State) : (s.setDr v).inputs = s.inputs := rfl
@[simp] theorem State.setDr_bus (v : Half) (s : State) : (s.setDr v).bus = s.bus := rfl
@[simp] theorem State.setDr_freeIdx (v : Half) (s : State) : (s.setDr v).freeIdx = s.freeIdx := rfl

@[simp] theorem State.setPc_a (v : Half) (s : State) : (s.setPc v).a = s.a := rfl
@[simp] theorem State.setPc_x (v : Half) (s : State) : (s.setPc v).x = s.x := rfl
@[simp] theorem State.setPc_y (v : Half) (s : State) : (s.setPc v).y = s.y := rfl
@[simp] theorem State.setPc_sp (v : Half) (s : State) : (s.setPc v).sp = s.sp := rfl
@[simp] theorem State.setPc_dr (v : Half) (s : State) : (s.setPc v).dr = s.dr := rfl
@[simp] theorem State.setPc_pc (v : Half) (s : State) : (s.setPc v).pc = v := rfl
@[simp] theorem State.setPc_pbr (v : Half) (s : State) : (s.setPc v).pbr = s.pbr := rfl
@[simp] theorem State.setPc_dbr (v : Half) (s : State) : (s.setPc v).dbr = s.dbr := rfl
@[simp] theorem State.setPc_p (v : Half) (s : State) : (s.setPc v).p = s.p := rfl
@[simp] theorem State.setPc_e8 (v : Half) (s : State) : (s.setPc v).e8 = s.e8 := rfl
@[simp] theorem State.setPc_e16 (v : Half) (s : State) : (s.setPc v).e16 = s.e16 := rfl
@[simp] theorem State.setPc_run (v : Half) (s : State) : (s.setPc v).run = s.run := rfl
@[simp] theorem State.setPc_nmiPending (v : Half) (s : State) : (s.setPc v).nmiPending = s.nmiPending := rfl
@[simp] theorem State.setPc_abortPending (v : Half) (s : State) : (s.setPc v).abortPending = s.abortPending := rfl
@[simp] theorem State.setPc_mem (v : Half) (s : State) : (s.setPc v).mem = s.mem := rfl
@[simp] theorem State.setPc_cfg (v : Half) (s : State) : (s.setPc v).cfg = s.cfg := rfl
@[simp] theorem State.setPc_inputs (v : Half) (s : State) : (s.setPc v).inputs = s.inputs := rfl
@[simp] theorem State.setPc_bus (v : Half) (s : State) : (s.setPc v).bus = s.bus := rfl
@[simp] theorem State.setPc_freeIdx (v : Half) (s : State) : (s.setPc v).freeIdx = s.freeIdx := rfl

@[simp] theorem State.setPbr_a (v : Byte) (s : State) : (s.setPbr v).a = s.a := rfl
@[simp] theorem State.setPbr_x (v : Byte) (s : State) : (s.setPbr v).x = s.x := rfl
@[simp] theorem State.setPbr_y (v : Byte) (s : State) : (s.setPbr v).y = s.y := rfl
@[simp] theorem State.setPbr_sp (v : Byte) (s : State) : (s.setPbr v).sp = s.sp := rfl
@[simp] theorem State.setPbr_dr (v : Byte) (s : State) : (s.setPbr v).dr = s.dr := rfl
@[simp] theorem State.setPbr_pc (v : Byte) (s : State) : (s.setPbr v).pc = s.pc := rfl
@[simp] theorem State.setPbr_pbr (v : Byte) (s : State) : (s.setPbr v).pbr = v := rfl
@[simp] theorem State.setPbr_dbr (v : Byte) (s : State) : (s.setPbr v).dbr = s.dbr := rfl
@[simp] theorem State.setPbr_p (v : Byte) (s : State) : (s.setPbr v).p = s.p := rfl
@[simp] theorem State.setPbr_e8 (v : Byte) (s : State) : (s.setPbr v).e8 = s.e8 := rfl
@[simp] theorem State.setPbr_e16 (v : Byte) (s : State) : (s.setPbr v).e16 = s.e16 := rfl
@[simp] theorem State.setPbr_run (v : Byte) (s : State) : (s.setPbr v).run = s.run := rfl
@[simp] theorem State.setPbr_nmiPending (v : Byte) (s : State) : (s.setPbr v).nmiPending = s.nmiPending := rfl
@[simp] theorem State.setPbr_abortPending (v : Byte) (s : State) : (s.setPbr v).abortPending = s.abortPending := rfl
@[simp] theorem State.setPbr_mem (v : Byte) (s : State) : (s.setPbr v).mem = s.mem := rfl
@[simp] theorem State.setPbr_cfg (v : Byte) (s : State) : (s.setPbr v).cfg = s.cfg := rfl
@[simp] theorem State.setPbr_inputs (v : Byte) (s : State) : (s.setPbr v).inputs = s.inputs := rfl
@[simp] theorem State.setPbr_bus (v : Byte) (s : State) : (s.setPbr v).bus = s.bus := rfl
@[simp] theorem State.setPbr_freeIdx (v : Byte) (s : State) : (s.setPbr v).freeIdx = s.freeIdx := rfl

@[simp] theorem State.setDbr_a (v : Byte) (s : State) : (s.setDbr v).a = s.a := rfl
@[simp] theorem State.setDbr_x (v : Byte) (s : State) : (s.setDbr v).x = s.x := rfl
@[simp] theorem State.setDbr_y (v : Byte) (s : State) : (s.setDbr v).y = s.y := rfl
@[simp] theorem State.setDbr_sp (v : Byte) (s : State) : (s.setDbr v).sp = s.sp := rfl
@[simp] theorem State.setDbr_dr (v : Byte) (s : State) : (s.setDbr v).dr = s.dr := rfl
@[simp] theorem State.setDbr_pc (v : Byte) (s : State) : (s.setDbr v).pc = s.pc := rfl
@[simp] theorem State.setDbr_pbr (v : Byte) (s : State) : (s.setDbr v).pbr = s.pbr := rfl
@[simp] theorem State.setDbr_dbr (v : Byte) (s : State) : (s.setDbr v).dbr = v := rfl
@[simp] theorem State.setDbr_p (v : Byte) (s : State) : (s.setDbr v).p = s.p := rfl
@[simp] theorem State.setDbr_e8 (v : Byte) (s : State) : (s.setDbr v).e8 = s.e8 := rfl
@[simp] theorem State.setDbr_e16 (v : Byte) (s : State) : (s.setDbr v).e16 = s.e16 := rfl
@[simp] theorem State.setDbr_run (v : Byte) (s : State) : (s.setDbr v).run = s.run := rfl
@[simp] theorem State.setDbr_nmiPending (v : Byte) (s : State) : (s.setDbr v).nmiPending = s.nmiPending := rfl
@[simp] theorem State.setDbr_abortPending (v : Byte) (s : State) : (s.setDbr v).abortPending = s.abortPending := rfl
@[simp] theorem State.setDbr_mem (v : Byte) (s : State) : (s.setDbr v).mem = s.mem := rfl
@[simp] theorem State.setDbr_cfg (v : Byte) (s : State) : (s.setDbr v).cfg = s.cfg := rfl
@[simp] theorem State.setDbr_inputs (v : Byte) (s : State) : (s.setDbr v).inputs = s.inputs := rfl
@[simp] theorem State.setDbr_bus (v : Byte) (s : State) : (s.setDbr v).bus = s.bus := rfl
@[simp] theorem State.setDbr_freeIdx (v : Byte) (s : State) : (s.setDbr v).freeIdx = s.freeIdx := rfl

@[simp] theorem State.setP_a (v : Status) (s : State) : (s.setP v).a = s.a := rfl
@[simp] theorem State.setP_x (v : Status) (s : State) : (s.setP v).x = s.x := rfl
@[simp] theorem State.setP_y (v : Status) (s : State) : (s.setP v).y = s.y := rfl
@[simp] theorem State.setP_sp (v : Status) (s : State) : (s.setP v).sp = s.sp := rfl
@[simp] theorem State.setP_dr (v : Status) (s : State) : (s.setP v).dr = s.dr := rfl
@[simp] theorem State.setP_pc (v : Status) (s : State) : (s.setP v).pc = s.pc := rfl
@[simp] theorem State.setP_pbr (v : Status) (s : State) : (s.setP v).pbr = s.pbr := rfl
@[simp] theorem State.setP_dbr (v : Status) (s : State) : (s.setP v).dbr = s.dbr := rfl
@[simp] theorem State.setP_p (v : Status) (s : State) : (s.setP v).p = v := rfl
@[simp] theorem State.setP_e8 (v : Status) (s : State) : (s.setP v).e8 = s.e8 := rfl
@[simp] theorem State.setP_e16 (v : Status) (s : State) : (s.setP v).e16 = s.e16 := rfl
@[simp] theorem State.setP_run (v : Status) (s : State) : (s.setP v).run = s.run := rfl
@[simp] theorem State.setP_nmiPending (v : Status) (s : State) : (s.setP v).nmiPending = s.nmiPending := rfl
@[simp] theorem State.setP_abortPending (v : Status) (s : State) : (s.setP v).abortPending = s.abortPending := rfl
@[simp] theorem State.setP_mem (v : Status) (s : State) : (s.setP v).mem = s.mem := rfl
@[simp] theorem State.setP_cfg (v : Status) (s : State) : (s.setP v).cfg = s.cfg := rfl
@[simp] theorem State.setP_inputs (v : Status) (s : State) : (s.setP v).inputs = s.inputs := rfl
@[simp] theorem State.setP_bus (v : Status) (s : State) : (s.setP v).bus = s.bus := rfl
@[simp] theorem State.setP_freeIdx (v : Status) (s : State) : (s.setP v).freeIdx = s.freeIdx := rfl

@[simp] theorem State.setModes_a (v w : Bool) (s : State) : (s.setModes v w).a = s.a := rfl
@[simp] theorem State.setModes_x (v w : Bool) (s : State) : (s.setModes v w).x = s.x := rfl
@[simp] theorem State.setModes_y (v w : Bool) (s : State) : (s.setModes v w).y = s.y := rfl
@[simp] theorem State.setModes_sp (v w : Bool) (s : State) : (s.setModes v w).sp = s.sp := rfl
@[simp] theorem State.setModes_dr (v w : Bool) (s : State) : (s.setModes v w).dr = s.dr := rfl
@[simp] theorem State.setModes_pc (v w : Bool) (s : State) : (s.setModes v w).pc = s.pc := rfl
@[simp] theorem State.setModes_pbr (v w : Bool) (s : State) : (s.setModes v w).pbr = s.pbr := rfl
@[simp] theorem State.setModes_dbr (v w : Bool) (s : State) : (s.setModes v w).dbr = s.dbr := rfl
@[simp] theorem State.setModes_p (v w : Bool) (s : State) : (s.setModes v w).p = s.p := rfl
@[simp] theorem State.setModes_e8 (v w : Bool) (s : State) : (s.setModes v w).e8 = v := rfl
@[simp] theorem State.setModes_e16 (v w : Bool) (s : State) : (s.setModes v w).e16 = w := rfl
@[simp] theorem State.setModes_run (v w : Bool) (s : State) : (s.setModes v w).run = s.run := rfl
@[simp] theorem State.setModes_nmiPending (v w : Bool) (s : State) : (s.setModes v w).nmiPending = s.nmiPending := rfl
@[simp] theorem State.setModes_abortPending (v w : Bool) (s : State) : (s.setModes v w).abortPending = s.abortPending := rfl
@[simp] theorem State.setModes_mem (v w : Bool) (s : State) : (s.setModes v w).mem = s.mem := rfl
@[simp] theorem State.setModes_cfg (v w : Bool) (s : State) : (s.setModes v w).cfg = s.cfg := rfl
@[simp] theorem State.setModes_inputs (v w : Bool) (s : State) : (s.setModes v w).inputs = s.inputs := rfl
@[simp] theorem State.setModes_bus (v w : Bool) (s : State) : (s.setModes v w).bus = s.bus := rfl
@[simp] theorem State.setModes_freeIdx (v w : Bool) (s : State) : (s.setModes v w).freeIdx = s.freeIdx := rfl

@[simp] theorem State.setRun_a (v : RunState) (s : State) : (s.setRun v).a = s.a := rfl
@[simp] theorem State.setRun_x (v : RunState) (s : State) : (s.setRun v).x = s.x := rfl
@[simp] theorem State.setRun_y (v : RunState) (s : State) : (s.setRun v).y = s.y := rfl
@[simp] theorem State.setRun_sp (v : RunState) (s : State) : (s.setRun v).sp = s.sp := rfl
@[simp] theorem State.setRun_dr (v : RunState) (s : State) : (s.setRun v).dr = s.dr := rfl
@[simp] theorem State.setRun_pc (v : RunState) (s : State) : (s.setRun v).pc = s.pc := rfl
@[simp] theorem State.setRun_pbr (v : RunState) (s : State) : (s.setRun v).pbr = s.pbr := rfl
@[simp] theorem State.setRun_dbr (v : RunState) (s : State) : (s.setRun v).dbr = s.dbr := rfl
@[simp] theorem State.setRun_p (v : RunState) (s : State) : (s.setRun v).p = s.p := rfl
@[simp] theorem State.setRun_e8 (v : RunState) (s : State) : (s.setRun v).e8 = s.e8 := rfl
@[simp] theorem State.setRun_e16 (v : RunState) (s : State) : (s.setRun v).e16 = s.e16 := rfl
@[simp] theorem State.setRun_run (v : RunState) (s : State) : (s.setRun v).run = v := rfl
@[simp] theorem State.setRun_nmiPending (v : RunState) (s : State) : (s.setRun v).nmiPending = s.nmiPending := rfl
@[simp] theorem State.setRun_abortPending (v : RunState) (s : State) : (s.setRun v).abortPending = s.abortPending := rfl
@[simp] theorem State.setRun_mem (v : RunState) (s : State) : (s.setRun v).mem = s.mem := rfl
@[simp] theorem State.setRun_cfg (v : RunState) (s : State) : (s.setRun v).cfg = s.cfg := rfl
@[simp] theorem State.setRun_inputs (v : RunState) (s : State) : (s.setRun v).inputs = s.inputs := rfl
@[simp] theorem State.setRun_bus (v : RunState) (s : State) : (s.setRun v).bus = s.bus := rfl
@[simp] theorem State.setRun_freeIdx (v : RunState) (s : State) : (s.setRun v).freeIdx = s.freeIdx := rfl

@[simp] theorem State.setNmi_a (v : Bool) (s : State) : (s.setNmi v).a = s.a := rfl
@[simp] theorem State.setNmi_x (v : Bool) (s : State) : (s.setNmi v).x = s.x := rfl
@[simp] theorem State.setNmi_y (v : Bool) (s : State) : (s.setNmi v).y = s.y := rfl
@[simp] theorem State.setNmi_sp (v : Bool) (s : State) : (s.setNmi v).sp = s.sp := rfl
@[simp] theorem State.setNmi_dr (v : Bool) (s : State) : (s.setNmi v).dr = s.dr := rfl
@[simp] theorem State.setNmi_pc (v : Bool) (s : State) : (s.setNmi v).pc = s.pc := rfl
@[simp] theorem State.setNmi_pbr (v : Bool) (s : State) : (s.setNmi v).pbr = s.pbr := rfl
@[simp] theorem State.setNmi_dbr (v : Bool) (s : State) : (s.setNmi v).dbr = s.dbr := rfl
@[simp] theorem State.setNmi_p (v : Bool) (s : State) : (s.setNmi v).p = s.p := rfl
@[simp] theorem State.setNmi_e8 (v : Bool) (s : State) : (s.setNmi v).e8 = s.e8 := rfl
@[simp] theorem State.setNmi_e16 (v : Bool) (s : State) : (s.setNmi v).e16 = s.e16 := rfl
@[simp] theorem State.setNmi_run (v : Bool) (s : State) : (s.setNmi v).run = s.run := rfl
@[simp] theorem State.setNmi_nmiPending (v : Bool) (s : State) : (s.setNmi v).nmiPending = v := rfl
@[simp] theorem State.setNmi_abortPending (v : Bool) (s : State) : (s.setNmi v).abortPending = s.abortPending := rfl
@[simp] theorem State.setNmi_mem (v : Bool) (s : State) : (s.setNmi v).mem = s.mem := rfl
@[simp] theorem State.setNmi_cfg (v : Bool) (s : State) : (s.setNmi v).cfg = s.cfg := rfl
@[simp] theorem State.setNmi_inputs (v : Bool) (s : State) : (s.setNmi v).inputs = s.inputs := rfl
@[simp] theorem State.setNmi_bus (v : Bool) (s : State) : (s.setNmi v).bus = s.bus := rfl
@[simp] theorem State.setNmi_freeIdx (v : Bool) (s : State) : (s.setNmi v).freeIdx = s.freeIdx := rfl

@[simp] theorem State.setAbort_a (v : Bool) (s : State) : (s.setAbort v).a = s.a := rfl
@[simp] theorem State.setAbort_x (v : Bool) (s : State) : (s.setAbort v).x = s.x := rfl
@[simp] theorem State.setAbort_y (v : Bool) (s : State) : (s.setAbort v).y = s.y := rfl
@[simp] theorem State.setAbort_sp (v : Bool) (s : State) : (s.setAbort v).sp = s.sp := rfl
@[simp] theorem State.setAbort_dr (v : Bool) (s : State) : (s.setAbort v).dr = s.dr := rfl
@[simp] theorem State.setAbort_pc (v : Bool) (s : State) : (s.setAbort v).pc = s.pc := rfl
@[simp] theorem State.setAbort_pbr (v : Bool) (s : State) : (s.setAbort v).pbr = s.pbr := rfl
@[simp] theorem State.setAbort_dbr (v : Bool) (s : State) : (s.setAbort v).dbr = s.dbr := rfl
@[simp] theorem State.setAbort_p (v : Bool) (s : State) : (s.setAbort v).p = s.p := rfl
@[simp] theorem State.setAbort_e8 (v : Bool) (s : State) : (s.setAbort v).e8 = s.e8 := rfl
@[simp] theorem State.setAbort_e16 (v : Bool) (s : State) : (s.setAbort v).e16 = s.e16 := rfl
@[simp] theorem State.setAbort_run (v : Bool) (s : State) : (s.setAbort v).run = s.run := rfl
@[simp] theorem State.setAbort_nmiPending (v : Bool) (s : State) : (s.setAbort v).nmiPending = s.nmiPending := rfl
@[simp] theorem State.setAbort_abortPending (v : Bool) (s : State) : (s.setAbort v).abortPending = v := rfl
@[simp] theorem State.setAbort_mem (v : Bool) (s : State) : (s.setAbort v).mem = s.mem := rfl
@[simp] theorem State.setAbort_cfg (v : Bool) (s : State) : (s.setAbort v).cfg = s.cfg := rfl
@[simp] theorem State.setAbort_inputs (v : Bool) (s : State) : (s.setAbort v).inputs = s.inputs := rfl
@[simp] theorem State.setAbort_bus (v : Bool) (s : State) : (s.setAbort v).bus = s.bus := rfl
@[simp] theorem State.setAbort_freeIdx (v : Bool) (s : State) : (s.setAbort v).freeIdx = s.freeIdx := rfl

@[simp] theorem State.setMem_a (v : List Host.Cell) (s : State) : (s.setMem v).a = s.a := rfl
@[simp] theorem State.setMem_x (v : List Host.Cell) (s : State) : (s.setMem v).x = s.x := rfl
@[simp] theorem State.setMem_y (v : List Host.Cell) (s : State) : (s.setMem v).y = s.y := rfl
@[simp] theorem State.setMem_sp (v : List Host.Cell) (s : State) : (s.setMem v).sp = s.sp := rfl
@[simp] theorem State.setMem_dr (v : List Host.Cell) (s : State) : (s.setMem v).dr = s.dr := rfl
@[simp] theorem State.setMem_pc (v : List Host.Cell) (s : State) : (s.setMem v).pc = s.pc := rfl
@[simp] theorem State.setMem_pbr (v : List Host.Cell) (s : State) : (s.setMem v).pbr = s.pbr := rfl
@[simp] theorem State.setMem_dbr (v : List Host.Cell) (s : State) : (s.setMem v).dbr = s.dbr := rfl
@[simp] theorem State.setMem_p (v : List Host.Cell) (s : State) : (s.setMem v).p = s.p := rfl
@[simp] theorem State.setMem_e8 (v : List Host.Cell) (s : State) : (s.setMem v).e8 = s.e8 := rfl
@[simp] theorem State.setMem_e16 (v : List Host.Cell) (s : State) : (s.setMem v).e16 = s.e16 := rfl
@[simp] theorem State.setMem_run (v : List Host.Cell) (s : State) : (s.setMem v).run = s.run := rfl
@[simp] theorem State.setMem_nmiPending (v : List Host.Cell) (s : State) : (s.setMem v).nmiPending = s.nmiPending := rfl
@[simp] theorem State.setMem_abortPending (v : List Host.Cell) (s : State) : (s.setMem v).abortPending = s.abortPending := rfl
@[simp] theorem State.setMem_mem (v : List Host.Cell) (s : State) : (s.setMem v).mem = v := rfl
@[simp] theorem State.setMem_cfg (v : List Host.Cell) (s : State) : (s.setMem v).cfg = s.cfg := rfl
@[simp] theorem State.setMem_inputs (v : List Host.Cell) (s : State) : (s.setMem v).inputs = s.inputs := rfl
@[simp] theorem State.setMem_bus (v : List Host.Cell) (s : State) : (s.setMem v).bus = s.bus := rfl
@[simp] theorem State.setMem_freeIdx (v : List Host.Cell) (s : State) : (s.setMem v).freeIdx = s.freeIdx := rfl

@[simp] theorem State.setInputs_a (v : List Inputs) (s : State) : (s.setInputs v).a = s.a := rfl
@[simp] theorem State.setInputs_x (v : List Inputs) (s : State) : (s.setInputs v).x = s.x := rfl
@[simp] theorem State.setInputs_y (v : List Inputs) (s : State) : (s.setInputs v).y = s.y := rfl
@[simp] theorem State.setInputs_sp (v : List Inputs) (s : State) : (s.setInputs v).sp = s.sp := rfl
@[simp] theorem State.setInputs_dr (v : List Inputs) (s : State) : (s.setInputs v).dr = s.dr := rfl
@[simp] theorem State.setInputs_pc (v : List Inputs) (s : State) : (s.setInputs v).pc = s.pc := rfl
@[simp] theorem State.setInputs_pbr (v : List Inputs) (s : State) : (s.setInputs v).pbr = s.pbr := rfl
@[simp] theorem State.setInputs_dbr (v : List Inputs) (s : State) : (s.setInputs v).dbr = s.dbr := rfl
@[simp] theorem State.setInputs_p (v : List Inputs) (s : State) : (s.setInputs v).p = s.p := rfl
@[simp] theorem State.setInputs_e8 (v : List Inputs) (s : State) : (s.setInputs v).e8 = s.e8 := rfl
@[simp] theorem State.setInputs_e16 (v : List Inputs) (s : State) : (s.setInputs v).e16 = s.e16 := rfl
@[simp] theorem State.setInputs_run (v : List Inputs) (s : State) : (s.setInputs v).run = s.run := rfl
@[simp] theorem State.setInputs_nmiPending (v : List Inputs) (s : State) : (s.setInputs v).nmiPending = s.nmiPending := rfl
@[simp] theorem State.setInputs_abortPending (v : List Inputs) (s : State) : (s.setInputs v).abortPending = s.abortPending := rfl
@[simp] theorem State.setInputs_mem (v : List Inputs) (s : State) : (s.setInputs v).mem = s.mem := rfl
@[simp] theorem State.setInputs_cfg (v : List Inputs) (s : State) : (s.setInputs v).cfg = s.cfg := rfl
@[simp] theorem State.setInputs_inputs (v : List Inputs) (s : State) : (s.setInputs v).inputs = v := rfl
@[simp] theorem State.setInputs_bus (v : List Inputs) (s : State) : (s.setInputs v).bus = s.bus := rfl
@[simp] theorem State.setInputs_freeIdx (v : List Inputs) (s : State) : (s.setInputs v).freeIdx = s.freeIdx := rfl

@[simp] theorem State.setBus_a (v : List BusEvent) (s : State) : (s.setBus v).a = s.a := rfl
@[simp] theorem State.setBus_x (v : List BusEvent) (s : State) : (s.setBus v).x = s.x := rfl
@[simp] theorem State.setBus_y (v : List BusEvent) (s : State) : (s.setBus v).y = s.y := rfl
@[simp] theorem State.setBus_sp (v : List BusEvent) (s : State) : (s.setBus v).sp = s.sp := rfl
@[simp] theorem State.setBus_dr (v : List BusEvent) (s : State) : (s.setBus v).dr = s.dr := rfl
@[simp] theorem State.setBus_pc (v : List BusEvent) (s : State) : (s.setBus v).pc = s.pc := rfl
@[simp] theorem State.setBus_pbr (v : List BusEvent) (s : State) : (s.setBus v).pbr = s.pbr := rfl
@[simp] theorem State.setBus_dbr (v : List BusEvent) (s : State) : (s.setBus v).dbr = s.dbr := rfl
@[simp] theorem State.setBus_p (v : List BusEvent) (s : State) : (s.setBus v).p = s.p := rfl
@[simp] theorem State.setBus_e8 (v : List BusEvent) (s : State) : (s.setBus v).e8 = s.e8 := rfl
@[simp] theorem State.setBus_e16 (v : List BusEvent) (s : State) : (s.setBus v).e16 = s.e16 := rfl
@[simp] theorem State.setBus_run (v : List BusEvent) (s : State) : (s.setBus v).run = s.run := rfl
@[simp] theorem State.setBus_nmiPending (v : List BusEvent) (s : State) : (s.setBus v).nmiPending = s.nmiPending := rfl
@[simp] theorem State.setBus_abortPending (v : List BusEvent) (s : State) : (s.setBus v).abortPending = s.abortPending := rfl
@[simp] theorem State.setBus_mem (v : List BusEvent) (s : State) : (s.setBus v).mem = s.mem := rfl
@[simp] theorem State.setBus_cfg (v : List BusEvent) (s : State) : (s.setBus v).cfg = s.cfg := rfl
@[simp] theorem State.setBus_inputs (v : List BusEvent) (s : State) : (s.setBus v).inputs = s.inputs := rfl
@[simp] theorem State.setBus_bus (v : List BusEvent) (s : State) : (s.setBus v).bus = v := rfl
@[simp] theorem State.setBus_freeIdx (v : List BusEvent) (s : State) : (s.setBus v).freeIdx = s.freeIdx := rfl

@[simp] theorem State.setFreeIdx_a (v : Nat) (s : State) : (s.setFreeIdx v).a = s.a := rfl
@[simp] theorem State.setFreeIdx_x (v : Nat) (s : State) : (s.setFreeIdx v).x = s.x := rfl
@[simp] theorem State.setFreeIdx_y (v : Nat) (s : State) : (s.setFreeIdx v).y = s.y := rfl
@[simp] theorem State.setFreeIdx_sp (v : Nat) (s : State) : (s.setFreeIdx v).sp = s.sp := rfl
@[simp] theorem State.setFreeIdx_dr (v : Nat) (s : State) : (s.setFreeIdx v).dr = s.dr := rfl
@[simp] theorem State.setFreeIdx_pc (v : Nat) (s : State) : (s.setFreeIdx v).pc = s.pc := rfl
@[simp] theorem State.setFreeIdx_pbr (v : Nat) (s : State) : (s.setFreeIdx v).pbr = s.pbr := rfl
@[simp] theorem State.setFreeIdx_dbr (v : Nat) (s : State) : (s.setFreeIdx v).dbr = s.dbr := rfl
@[simp] theorem State.setFreeIdx_p (v : Nat) (s : State) : (s.setFreeIdx v).p = s.p := rfl
@[simp] theorem State.setFreeIdx_e8 (v : Nat) (s : State) : (s.setFreeIdx v).e8 = s.e8 := rfl
@[simp] theorem State.setFreeIdx_e16 (v : Nat) (s : State) : (s.setFreeIdx v).e16 = s.e16 := rfl
@[simp] theorem State.setFreeIdx_run (v : Nat) (s : State) : (s.setFreeIdx v).run = s.run := rfl
@[simp] theorem State.setFreeIdx_nmiPending (v : Nat) (s : State) : (s.setFreeIdx v).nmiPending = s.nmiPending := rfl
@[simp] theorem State.setFreeIdx_abortPending (v : Nat) (s : State) : (s.setFreeIdx v).abortPending = s.abortPending := rfl
@[simp] theorem State.setFreeIdx_mem (v : Nat) (s : State) : (s.setFreeIdx v).mem = s.mem := rfl
@[simp] theorem State.setFreeIdx_cfg (v : Nat) (s : State) : (s.setFreeIdx v).cfg = s.cfg := rfl
@[simp] theorem State.setFreeIdx_inputs (v : Nat) (s : State) : (s.setFreeIdx v).inputs = s.inputs := rfl
@[simp] theorem State.setFreeIdx_bus (v : Nat) (s : State) : (s.setFreeIdx v).bus = s.bus := rfl
@[simp] theorem State.setFreeIdx_freeIdx (v : Nat) (s : State) : (s.setFreeIdx v).freeIdx = v := rfl

end Sys2Proof.Machine
end

