-- ==== Sys2Proof/Laws/Frames.lean ====
section
/-! SUPPORT. What each shared operation leaves unchanged: one lemma per operation and field. -/

namespace Sys2Proof.Machine

@[simp] theorem State.writeA_x (w : Width) (v : Word) (s : State) : (s.writeA w v).x = s.x := rfl
@[simp] theorem State.writeA_y (w : Width) (v : Word) (s : State) : (s.writeA w v).y = s.y := rfl
@[simp] theorem State.writeA_sp (w : Width) (v : Word) (s : State) : (s.writeA w v).sp = s.sp := rfl
@[simp] theorem State.writeA_dr (w : Width) (v : Word) (s : State) : (s.writeA w v).dr = s.dr := rfl
@[simp] theorem State.writeA_pc (w : Width) (v : Word) (s : State) : (s.writeA w v).pc = s.pc := rfl
@[simp] theorem State.writeA_pbr (w : Width) (v : Word) (s : State) : (s.writeA w v).pbr = s.pbr := rfl
@[simp] theorem State.writeA_dbr (w : Width) (v : Word) (s : State) : (s.writeA w v).dbr = s.dbr := rfl
@[simp] theorem State.writeA_p (w : Width) (v : Word) (s : State) : (s.writeA w v).p = s.p := rfl
@[simp] theorem State.writeA_e8 (w : Width) (v : Word) (s : State) : (s.writeA w v).e8 = s.e8 := rfl
@[simp] theorem State.writeA_e16 (w : Width) (v : Word) (s : State) : (s.writeA w v).e16 = s.e16 := rfl
@[simp] theorem State.writeA_run (w : Width) (v : Word) (s : State) : (s.writeA w v).run = s.run := rfl
@[simp] theorem State.writeA_nmiPending (w : Width) (v : Word) (s : State) : (s.writeA w v).nmiPending = s.nmiPending := rfl
@[simp] theorem State.writeA_abortPending (w : Width) (v : Word) (s : State) : (s.writeA w v).abortPending = s.abortPending := rfl
@[simp] theorem State.writeA_mem (w : Width) (v : Word) (s : State) : (s.writeA w v).mem = s.mem := rfl
@[simp] theorem State.writeA_cfg (w : Width) (v : Word) (s : State) : (s.writeA w v).cfg = s.cfg := rfl
@[simp] theorem State.writeA_inputs (w : Width) (v : Word) (s : State) : (s.writeA w v).inputs = s.inputs := rfl
@[simp] theorem State.writeA_bus (w : Width) (v : Word) (s : State) : (s.writeA w v).bus = s.bus := rfl
@[simp] theorem State.writeA_freeIdx (w : Width) (v : Word) (s : State) : (s.writeA w v).freeIdx = s.freeIdx := rfl
@[simp] theorem State.writeA_emu8 (w : Width) (v : Word) (s : State) : (s.writeA w v).emu8 = s.emu8 :=
  congrArg₂ (fun a b : Bool => a && b) (State.writeA_e16 w v s) (State.writeA_e8 w v s)
@[simp] theorem State.writeA_native (w : Width) (v : Word) (s : State) : (s.writeA w v).native = s.native :=
  congrArg (fun b : Bool => !b) (State.writeA_e16 w v s)

@[simp] theorem State.writeX_a (w : Width) (v : Word) (s : State) : (s.writeX w v).a = s.a := rfl
@[simp] theorem State.writeX_y (w : Width) (v : Word) (s : State) : (s.writeX w v).y = s.y := rfl
@[simp] theorem State.writeX_sp (w : Width) (v : Word) (s : State) : (s.writeX w v).sp = s.sp := rfl
@[simp] theorem State.writeX_dr (w : Width) (v : Word) (s : State) : (s.writeX w v).dr = s.dr := rfl
@[simp] theorem State.writeX_pc (w : Width) (v : Word) (s : State) : (s.writeX w v).pc = s.pc := rfl
@[simp] theorem State.writeX_pbr (w : Width) (v : Word) (s : State) : (s.writeX w v).pbr = s.pbr := rfl
@[simp] theorem State.writeX_dbr (w : Width) (v : Word) (s : State) : (s.writeX w v).dbr = s.dbr := rfl
@[simp] theorem State.writeX_p (w : Width) (v : Word) (s : State) : (s.writeX w v).p = s.p := rfl
@[simp] theorem State.writeX_e8 (w : Width) (v : Word) (s : State) : (s.writeX w v).e8 = s.e8 := rfl
@[simp] theorem State.writeX_e16 (w : Width) (v : Word) (s : State) : (s.writeX w v).e16 = s.e16 := rfl
@[simp] theorem State.writeX_run (w : Width) (v : Word) (s : State) : (s.writeX w v).run = s.run := rfl
@[simp] theorem State.writeX_nmiPending (w : Width) (v : Word) (s : State) : (s.writeX w v).nmiPending = s.nmiPending := rfl
@[simp] theorem State.writeX_abortPending (w : Width) (v : Word) (s : State) : (s.writeX w v).abortPending = s.abortPending := rfl
@[simp] theorem State.writeX_mem (w : Width) (v : Word) (s : State) : (s.writeX w v).mem = s.mem := rfl
@[simp] theorem State.writeX_cfg (w : Width) (v : Word) (s : State) : (s.writeX w v).cfg = s.cfg := rfl
@[simp] theorem State.writeX_inputs (w : Width) (v : Word) (s : State) : (s.writeX w v).inputs = s.inputs := rfl
@[simp] theorem State.writeX_bus (w : Width) (v : Word) (s : State) : (s.writeX w v).bus = s.bus := rfl
@[simp] theorem State.writeX_freeIdx (w : Width) (v : Word) (s : State) : (s.writeX w v).freeIdx = s.freeIdx := rfl
@[simp] theorem State.writeX_emu8 (w : Width) (v : Word) (s : State) : (s.writeX w v).emu8 = s.emu8 :=
  congrArg₂ (fun a b : Bool => a && b) (State.writeX_e16 w v s) (State.writeX_e8 w v s)
@[simp] theorem State.writeX_native (w : Width) (v : Word) (s : State) : (s.writeX w v).native = s.native :=
  congrArg (fun b : Bool => !b) (State.writeX_e16 w v s)

@[simp] theorem State.writeY_a (w : Width) (v : Word) (s : State) : (s.writeY w v).a = s.a := rfl
@[simp] theorem State.writeY_x (w : Width) (v : Word) (s : State) : (s.writeY w v).x = s.x := rfl
@[simp] theorem State.writeY_sp (w : Width) (v : Word) (s : State) : (s.writeY w v).sp = s.sp := rfl
@[simp] theorem State.writeY_dr (w : Width) (v : Word) (s : State) : (s.writeY w v).dr = s.dr := rfl
@[simp] theorem State.writeY_pc (w : Width) (v : Word) (s : State) : (s.writeY w v).pc = s.pc := rfl
@[simp] theorem State.writeY_pbr (w : Width) (v : Word) (s : State) : (s.writeY w v).pbr = s.pbr := rfl
@[simp] theorem State.writeY_dbr (w : Width) (v : Word) (s : State) : (s.writeY w v).dbr = s.dbr := rfl
@[simp] theorem State.writeY_p (w : Width) (v : Word) (s : State) : (s.writeY w v).p = s.p := rfl
@[simp] theorem State.writeY_e8 (w : Width) (v : Word) (s : State) : (s.writeY w v).e8 = s.e8 := rfl
@[simp] theorem State.writeY_e16 (w : Width) (v : Word) (s : State) : (s.writeY w v).e16 = s.e16 := rfl
@[simp] theorem State.writeY_run (w : Width) (v : Word) (s : State) : (s.writeY w v).run = s.run := rfl
@[simp] theorem State.writeY_nmiPending (w : Width) (v : Word) (s : State) : (s.writeY w v).nmiPending = s.nmiPending := rfl
@[simp] theorem State.writeY_abortPending (w : Width) (v : Word) (s : State) : (s.writeY w v).abortPending = s.abortPending := rfl
@[simp] theorem State.writeY_mem (w : Width) (v : Word) (s : State) : (s.writeY w v).mem = s.mem := rfl
@[simp] theorem State.writeY_cfg (w : Width) (v : Word) (s : State) : (s.writeY w v).cfg = s.cfg := rfl
@[simp] theorem State.writeY_inputs (w : Width) (v : Word) (s : State) : (s.writeY w v).inputs = s.inputs := rfl
@[simp] theorem State.writeY_bus (w : Width) (v : Word) (s : State) : (s.writeY w v).bus = s.bus := rfl
@[simp] theorem State.writeY_freeIdx (w : Width) (v : Word) (s : State) : (s.writeY w v).freeIdx = s.freeIdx := rfl
@[simp] theorem State.writeY_emu8 (w : Width) (v : Word) (s : State) : (s.writeY w v).emu8 = s.emu8 :=
  congrArg₂ (fun a b : Bool => a && b) (State.writeY_e16 w v s) (State.writeY_e8 w v s)
@[simp] theorem State.writeY_native (w : Width) (v : Word) (s : State) : (s.writeY w v).native = s.native :=
  congrArg (fun b : Bool => !b) (State.writeY_e16 w v s)

@[simp] theorem State.advance_a (n : Nat) (s : State) : (s.advance n).a = s.a := rfl
@[simp] theorem State.advance_x (n : Nat) (s : State) : (s.advance n).x = s.x := rfl
@[simp] theorem State.advance_y (n : Nat) (s : State) : (s.advance n).y = s.y := rfl
@[simp] theorem State.advance_sp (n : Nat) (s : State) : (s.advance n).sp = s.sp := rfl
@[simp] theorem State.advance_dr (n : Nat) (s : State) : (s.advance n).dr = s.dr := rfl
@[simp] theorem State.advance_pbr (n : Nat) (s : State) : (s.advance n).pbr = s.pbr := rfl
@[simp] theorem State.advance_dbr (n : Nat) (s : State) : (s.advance n).dbr = s.dbr := rfl
@[simp] theorem State.advance_p (n : Nat) (s : State) : (s.advance n).p = s.p := rfl
@[simp] theorem State.advance_e8 (n : Nat) (s : State) : (s.advance n).e8 = s.e8 := rfl
@[simp] theorem State.advance_e16 (n : Nat) (s : State) : (s.advance n).e16 = s.e16 := rfl
@[simp] theorem State.advance_run (n : Nat) (s : State) : (s.advance n).run = s.run := rfl
@[simp] theorem State.advance_nmiPending (n : Nat) (s : State) : (s.advance n).nmiPending = s.nmiPending := rfl
@[simp] theorem State.advance_abortPending (n : Nat) (s : State) : (s.advance n).abortPending = s.abortPending := rfl
@[simp] theorem State.advance_mem (n : Nat) (s : State) : (s.advance n).mem = s.mem := rfl
@[simp] theorem State.advance_cfg (n : Nat) (s : State) : (s.advance n).cfg = s.cfg := rfl
@[simp] theorem State.advance_inputs (n : Nat) (s : State) : (s.advance n).inputs = s.inputs := rfl
@[simp] theorem State.advance_bus (n : Nat) (s : State) : (s.advance n).bus = s.bus := rfl
@[simp] theorem State.advance_freeIdx (n : Nat) (s : State) : (s.advance n).freeIdx = s.freeIdx := rfl
@[simp] theorem State.advance_emu8 (n : Nat) (s : State) : (s.advance n).emu8 = s.emu8 :=
  congrArg₂ (fun a b : Bool => a && b) (State.advance_e16 n s) (State.advance_e8 n s)
@[simp] theorem State.advance_native (n : Nat) (s : State) : (s.advance n).native = s.native :=
  congrArg (fun b : Bool => !b) (State.advance_e16 n s)

@[simp] theorem State.useFree_a (n : Nat) (s : State) : (s.useFree n).a = s.a := rfl
@[simp] theorem State.useFree_x (n : Nat) (s : State) : (s.useFree n).x = s.x := rfl
@[simp] theorem State.useFree_y (n : Nat) (s : State) : (s.useFree n).y = s.y := rfl
@[simp] theorem State.useFree_sp (n : Nat) (s : State) : (s.useFree n).sp = s.sp := rfl
@[simp] theorem State.useFree_dr (n : Nat) (s : State) : (s.useFree n).dr = s.dr := rfl
@[simp] theorem State.useFree_pc (n : Nat) (s : State) : (s.useFree n).pc = s.pc := rfl
@[simp] theorem State.useFree_pbr (n : Nat) (s : State) : (s.useFree n).pbr = s.pbr := rfl
@[simp] theorem State.useFree_dbr (n : Nat) (s : State) : (s.useFree n).dbr = s.dbr := rfl
@[simp] theorem State.useFree_p (n : Nat) (s : State) : (s.useFree n).p = s.p := rfl
@[simp] theorem State.useFree_e8 (n : Nat) (s : State) : (s.useFree n).e8 = s.e8 := rfl
@[simp] theorem State.useFree_e16 (n : Nat) (s : State) : (s.useFree n).e16 = s.e16 := rfl
@[simp] theorem State.useFree_run (n : Nat) (s : State) : (s.useFree n).run = s.run := rfl
@[simp] theorem State.useFree_nmiPending (n : Nat) (s : State) : (s.useFree n).nmiPending = s.nmiPending := rfl
@[simp] theorem State.useFree_abortPending (n : Nat) (s : State) : (s.useFree n).abortPending = s.abortPending := rfl
@[simp] theorem State.useFree_mem (n : Nat) (s : State) : (s.useFree n).mem = s.mem := rfl
@[simp] theorem State.useFree_cfg (n : Nat) (s : State) : (s.useFree n).cfg = s.cfg := rfl
@[simp] theorem State.useFree_inputs (n : Nat) (s : State) : (s.useFree n).inputs = s.inputs := rfl
@[simp] theorem State.useFree_bus (n : Nat) (s : State) : (s.useFree n).bus = s.bus := rfl
@[simp] theorem State.useFree_emu8 (n : Nat) (s : State) : (s.useFree n).emu8 = s.emu8 :=
  congrArg₂ (fun a b : Bool => a && b) (State.useFree_e16 n s) (State.useFree_e8 n s)
@[simp] theorem State.useFree_native (n : Nat) (s : State) : (s.useFree n).native = s.native :=
  congrArg (fun b : Bool => !b) (State.useFree_e16 n s)

@[simp] theorem State.noteRead_a (k : BusKind) (a : Word) (s : State) : (s.noteRead k a).a = s.a := rfl
@[simp] theorem State.noteRead_x (k : BusKind) (a : Word) (s : State) : (s.noteRead k a).x = s.x := rfl
@[simp] theorem State.noteRead_y (k : BusKind) (a : Word) (s : State) : (s.noteRead k a).y = s.y := rfl
@[simp] theorem State.noteRead_sp (k : BusKind) (a : Word) (s : State) : (s.noteRead k a).sp = s.sp := rfl
@[simp] theorem State.noteRead_dr (k : BusKind) (a : Word) (s : State) : (s.noteRead k a).dr = s.dr := rfl
@[simp] theorem State.noteRead_pc (k : BusKind) (a : Word) (s : State) : (s.noteRead k a).pc = s.pc := rfl
@[simp] theorem State.noteRead_pbr (k : BusKind) (a : Word) (s : State) : (s.noteRead k a).pbr = s.pbr := rfl
@[simp] theorem State.noteRead_dbr (k : BusKind) (a : Word) (s : State) : (s.noteRead k a).dbr = s.dbr := rfl
@[simp] theorem State.noteRead_p (k : BusKind) (a : Word) (s : State) : (s.noteRead k a).p = s.p := rfl
@[simp] theorem State.noteRead_e8 (k : BusKind) (a : Word) (s : State) : (s.noteRead k a).e8 = s.e8 := rfl
@[simp] theorem State.noteRead_e16 (k : BusKind) (a : Word) (s : State) : (s.noteRead k a).e16 = s.e16 := rfl
@[simp] theorem State.noteRead_run (k : BusKind) (a : Word) (s : State) : (s.noteRead k a).run = s.run := rfl
@[simp] theorem State.noteRead_nmiPending (k : BusKind) (a : Word) (s : State) : (s.noteRead k a).nmiPending = s.nmiPending := rfl
@[simp] theorem State.noteRead_abortPending (k : BusKind) (a : Word) (s : State) : (s.noteRead k a).abortPending = s.abortPending := rfl
@[simp] theorem State.noteRead_mem (k : BusKind) (a : Word) (s : State) : (s.noteRead k a).mem = s.mem := rfl
@[simp] theorem State.noteRead_cfg (k : BusKind) (a : Word) (s : State) : (s.noteRead k a).cfg = s.cfg := rfl
@[simp] theorem State.noteRead_inputs (k : BusKind) (a : Word) (s : State) : (s.noteRead k a).inputs = s.inputs := rfl
@[simp] theorem State.noteRead_freeIdx (k : BusKind) (a : Word) (s : State) : (s.noteRead k a).freeIdx = s.freeIdx := rfl
@[simp] theorem State.noteRead_emu8 (k : BusKind) (a : Word) (s : State) : (s.noteRead k a).emu8 = s.emu8 :=
  congrArg₂ (fun a b : Bool => a && b) (State.noteRead_e16 k a s) (State.noteRead_e8 k a s)
@[simp] theorem State.noteRead_native (k : BusKind) (a : Word) (s : State) : (s.noteRead k a).native = s.native :=
  congrArg (fun b : Bool => !b) (State.noteRead_e16 k a s)

@[simp] theorem State.noteReads_a (k : BusKind) (ea : EA) (n : Nat) (s : State) : (s.noteReads k ea n).a = s.a := rfl
@[simp] theorem State.noteReads_x (k : BusKind) (ea : EA) (n : Nat) (s : State) : (s.noteReads k ea n).x = s.x := rfl
@[simp] theorem State.noteReads_y (k : BusKind) (ea : EA) (n : Nat) (s : State) : (s.noteReads k ea n).y = s.y := rfl
@[simp] theorem State.noteReads_sp (k : BusKind) (ea : EA) (n : Nat) (s : State) : (s.noteReads k ea n).sp = s.sp := rfl
@[simp] theorem State.noteReads_dr (k : BusKind) (ea : EA) (n : Nat) (s : State) : (s.noteReads k ea n).dr = s.dr := rfl
@[simp] theorem State.noteReads_pc (k : BusKind) (ea : EA) (n : Nat) (s : State) : (s.noteReads k ea n).pc = s.pc := rfl
@[simp] theorem State.noteReads_pbr (k : BusKind) (ea : EA) (n : Nat) (s : State) : (s.noteReads k ea n).pbr = s.pbr := rfl
@[simp] theorem State.noteReads_dbr (k : BusKind) (ea : EA) (n : Nat) (s : State) : (s.noteReads k ea n).dbr = s.dbr := rfl
@[simp] theorem State.noteReads_p (k : BusKind) (ea : EA) (n : Nat) (s : State) : (s.noteReads k ea n).p = s.p := rfl
@[simp] theorem State.noteReads_e8 (k : BusKind) (ea : EA) (n : Nat) (s : State) : (s.noteReads k ea n).e8 = s.e8 := rfl
@[simp] theorem State.noteReads_e16 (k : BusKind) (ea : EA) (n : Nat) (s : State) : (s.noteReads k ea n).e16 = s.e16 := rfl
@[simp] theorem State.noteReads_run (k : BusKind) (ea : EA) (n : Nat) (s : State) : (s.noteReads k ea n).run = s.run := rfl
@[simp] theorem State.noteReads_nmiPending (k : BusKind) (ea : EA) (n : Nat) (s : State) : (s.noteReads k ea n).nmiPending = s.nmiPending := rfl
@[simp] theorem State.noteReads_abortPending (k : BusKind) (ea : EA) (n : Nat) (s : State) : (s.noteReads k ea n).abortPending = s.abortPending := rfl
@[simp] theorem State.noteReads_mem (k : BusKind) (ea : EA) (n : Nat) (s : State) : (s.noteReads k ea n).mem = s.mem := rfl
@[simp] theorem State.noteReads_cfg (k : BusKind) (ea : EA) (n : Nat) (s : State) : (s.noteReads k ea n).cfg = s.cfg := rfl
@[simp] theorem State.noteReads_inputs (k : BusKind) (ea : EA) (n : Nat) (s : State) : (s.noteReads k ea n).inputs = s.inputs := rfl
@[simp] theorem State.noteReads_freeIdx (k : BusKind) (ea : EA) (n : Nat) (s : State) : (s.noteReads k ea n).freeIdx = s.freeIdx := rfl
@[simp] theorem State.noteReads_emu8 (k : BusKind) (ea : EA) (n : Nat) (s : State) : (s.noteReads k ea n).emu8 = s.emu8 :=
  congrArg₂ (fun a b : Bool => a && b) (State.noteReads_e16 k ea n s) (State.noteReads_e8 k ea n s)
@[simp] theorem State.noteReads_native (k : BusKind) (ea : EA) (n : Nat) (s : State) : (s.noteReads k ea n).native = s.native :=
  congrArg (fun b : Bool => !b) (State.noteReads_e16 k ea n s)

@[simp] theorem State.noteFetch_a (i : Nat) (s : State) : (s.noteFetch i).a = s.a := rfl
@[simp] theorem State.noteFetch_x (i : Nat) (s : State) : (s.noteFetch i).x = s.x := rfl
@[simp] theorem State.noteFetch_y (i : Nat) (s : State) : (s.noteFetch i).y = s.y := rfl
@[simp] theorem State.noteFetch_sp (i : Nat) (s : State) : (s.noteFetch i).sp = s.sp := rfl
@[simp] theorem State.noteFetch_dr (i : Nat) (s : State) : (s.noteFetch i).dr = s.dr := rfl
@[simp] theorem State.noteFetch_pc (i : Nat) (s : State) : (s.noteFetch i).pc = s.pc := rfl
@[simp] theorem State.noteFetch_pbr (i : Nat) (s : State) : (s.noteFetch i).pbr = s.pbr := rfl
@[simp] theorem State.noteFetch_dbr (i : Nat) (s : State) : (s.noteFetch i).dbr = s.dbr := rfl
@[simp] theorem State.noteFetch_p (i : Nat) (s : State) : (s.noteFetch i).p = s.p := rfl
@[simp] theorem State.noteFetch_e8 (i : Nat) (s : State) : (s.noteFetch i).e8 = s.e8 := rfl
@[simp] theorem State.noteFetch_e16 (i : Nat) (s : State) : (s.noteFetch i).e16 = s.e16 := rfl
@[simp] theorem State.noteFetch_run (i : Nat) (s : State) : (s.noteFetch i).run = s.run := rfl
@[simp] theorem State.noteFetch_nmiPending (i : Nat) (s : State) : (s.noteFetch i).nmiPending = s.nmiPending := rfl
@[simp] theorem State.noteFetch_abortPending (i : Nat) (s : State) : (s.noteFetch i).abortPending = s.abortPending := rfl
@[simp] theorem State.noteFetch_mem (i : Nat) (s : State) : (s.noteFetch i).mem = s.mem := rfl
@[simp] theorem State.noteFetch_cfg (i : Nat) (s : State) : (s.noteFetch i).cfg = s.cfg := rfl
@[simp] theorem State.noteFetch_inputs (i : Nat) (s : State) : (s.noteFetch i).inputs = s.inputs := rfl
@[simp] theorem State.noteFetch_freeIdx (i : Nat) (s : State) : (s.noteFetch i).freeIdx = s.freeIdx := rfl
@[simp] theorem State.noteFetch_emu8 (i : Nat) (s : State) : (s.noteFetch i).emu8 = s.emu8 :=
  congrArg₂ (fun a b : Bool => a && b) (State.noteFetch_e16 i s) (State.noteFetch_e8 i s)
@[simp] theorem State.noteFetch_native (i : Nat) (s : State) : (s.noteFetch i).native = s.native :=
  congrArg (fun b : Bool => !b) (State.noteFetch_e16 i s)

@[simp] theorem State.noteFetches_a (n : Nat) (s : State) : (s.noteFetches n).a = s.a := by
  induction n with
  | zero => rfl
  | succ n ih => exact ih
@[simp] theorem State.noteFetches_x (n : Nat) (s : State) : (s.noteFetches n).x = s.x := by
  induction n with
  | zero => rfl
  | succ n ih => exact ih
@[simp] theorem State.noteFetches_y (n : Nat) (s : State) : (s.noteFetches n).y = s.y := by
  induction n with
  | zero => rfl
  | succ n ih => exact ih
@[simp] theorem State.noteFetches_sp (n : Nat) (s : State) : (s.noteFetches n).sp = s.sp := by
  induction n with
  | zero => rfl
  | succ n ih => exact ih
@[simp] theorem State.noteFetches_dr (n : Nat) (s : State) : (s.noteFetches n).dr = s.dr := by
  induction n with
  | zero => rfl
  | succ n ih => exact ih
@[simp] theorem State.noteFetches_pc (n : Nat) (s : State) : (s.noteFetches n).pc = s.pc := by
  induction n with
  | zero => rfl
  | succ n ih => exact ih
@[simp] theorem State.noteFetches_pbr (n : Nat) (s : State) : (s.noteFetches n).pbr = s.pbr := by
  induction n with
  | zero => rfl
  | succ n ih => exact ih
@[simp] theorem State.noteFetches_dbr (n : Nat) (s : State) : (s.noteFetches n).dbr = s.dbr := by
  induction n with
  | zero => rfl
  | succ n ih => exact ih
@[simp] theorem State.noteFetches_p (n : Nat) (s : State) : (s.noteFetches n).p = s.p := by
  induction n with
  | zero => rfl
  | succ n ih => exact ih
@[simp] theorem State.noteFetches_e8 (n : Nat) (s : State) : (s.noteFetches n).e8 = s.e8 := by
  induction n with
  | zero => rfl
  | succ n ih => exact ih
@[simp] theorem State.noteFetches_e16 (n : Nat) (s : State) : (s.noteFetches n).e16 = s.e16 := by
  induction n with
  | zero => rfl
  | succ n ih => exact ih
@[simp] theorem State.noteFetches_run (n : Nat) (s : State) : (s.noteFetches n).run = s.run := by
  induction n with
  | zero => rfl
  | succ n ih => exact ih
@[simp] theorem State.noteFetches_nmiPending (n : Nat) (s : State) : (s.noteFetches n).nmiPending = s.nmiPending := by
  induction n with
  | zero => rfl
  | succ n ih => exact ih
@[simp] theorem State.noteFetches_abortPending (n : Nat) (s : State) : (s.noteFetches n).abortPending = s.abortPending := by
  induction n with
  | zero => rfl
  | succ n ih => exact ih
@[simp] theorem State.noteFetches_mem (n : Nat) (s : State) : (s.noteFetches n).mem = s.mem := by
  induction n with
  | zero => rfl
  | succ n ih => exact ih
@[simp] theorem State.noteFetches_cfg (n : Nat) (s : State) : (s.noteFetches n).cfg = s.cfg := by
  induction n with
  | zero => rfl
  | succ n ih => exact ih
@[simp] theorem State.noteFetches_inputs (n : Nat) (s : State) : (s.noteFetches n).inputs = s.inputs := by
  induction n with
  | zero => rfl
  | succ n ih => exact ih
@[simp] theorem State.noteFetches_freeIdx (n : Nat) (s : State) : (s.noteFetches n).freeIdx = s.freeIdx := by
  induction n with
  | zero => rfl
  | succ n ih => exact ih
@[simp] theorem State.noteFetches_emu8 (n : Nat) (s : State) : (s.noteFetches n).emu8 = s.emu8 :=
  congrArg₂ (fun a b : Bool => a && b) (State.noteFetches_e16 n s) (State.noteFetches_e8 n s)
@[simp] theorem State.noteFetches_native (n : Nat) (s : State) : (s.noteFetches n).native = s.native :=
  congrArg (fun b : Bool => !b) (State.noteFetches_e16 n s)

@[simp] theorem State.write8_a (k : BusKind) (a : Word) (v : Byte) (s : State) : (s.write8 k a v).a = s.a := rfl
@[simp] theorem State.write8_x (k : BusKind) (a : Word) (v : Byte) (s : State) : (s.write8 k a v).x = s.x := rfl
@[simp] theorem State.write8_y (k : BusKind) (a : Word) (v : Byte) (s : State) : (s.write8 k a v).y = s.y := rfl
@[simp] theorem State.write8_sp (k : BusKind) (a : Word) (v : Byte) (s : State) : (s.write8 k a v).sp = s.sp := rfl
@[simp] theorem State.write8_dr (k : BusKind) (a : Word) (v : Byte) (s : State) : (s.write8 k a v).dr = s.dr := rfl
@[simp] theorem State.write8_pc (k : BusKind) (a : Word) (v : Byte) (s : State) : (s.write8 k a v).pc = s.pc := rfl
@[simp] theorem State.write8_pbr (k : BusKind) (a : Word) (v : Byte) (s : State) : (s.write8 k a v).pbr = s.pbr := rfl
@[simp] theorem State.write8_dbr (k : BusKind) (a : Word) (v : Byte) (s : State) : (s.write8 k a v).dbr = s.dbr := rfl
@[simp] theorem State.write8_p (k : BusKind) (a : Word) (v : Byte) (s : State) : (s.write8 k a v).p = s.p := rfl
@[simp] theorem State.write8_e8 (k : BusKind) (a : Word) (v : Byte) (s : State) : (s.write8 k a v).e8 = s.e8 := rfl
@[simp] theorem State.write8_e16 (k : BusKind) (a : Word) (v : Byte) (s : State) : (s.write8 k a v).e16 = s.e16 := rfl
@[simp] theorem State.write8_run (k : BusKind) (a : Word) (v : Byte) (s : State) : (s.write8 k a v).run = s.run := rfl
@[simp] theorem State.write8_nmiPending (k : BusKind) (a : Word) (v : Byte) (s : State) : (s.write8 k a v).nmiPending = s.nmiPending := rfl
@[simp] theorem State.write8_abortPending (k : BusKind) (a : Word) (v : Byte) (s : State) : (s.write8 k a v).abortPending = s.abortPending := rfl
@[simp] theorem State.write8_cfg (k : BusKind) (a : Word) (v : Byte) (s : State) : (s.write8 k a v).cfg = s.cfg := rfl
@[simp] theorem State.write8_inputs (k : BusKind) (a : Word) (v : Byte) (s : State) : (s.write8 k a v).inputs = s.inputs := rfl
@[simp] theorem State.write8_freeIdx (k : BusKind) (a : Word) (v : Byte) (s : State) : (s.write8 k a v).freeIdx = s.freeIdx := rfl
@[simp] theorem State.write8_emu8 (k : BusKind) (a : Word) (v : Byte) (s : State) : (s.write8 k a v).emu8 = s.emu8 :=
  congrArg₂ (fun a b : Bool => a && b) (State.write8_e16 k a v s) (State.write8_e8 k a v s)
@[simp] theorem State.write8_native (k : BusKind) (a : Word) (v : Byte) (s : State) : (s.write8 k a v).native = s.native :=
  congrArg (fun b : Bool => !b) (State.write8_e16 k a v s)

@[simp] theorem State.writeBytes_a (ea : EA) (v : Word) (l : List Nat) (s : State) : (s.writeBytes ea v l).a = s.a := by
  induction l generalizing s with
  | nil => rfl
  | cons i l ih => exact ih _
@[simp] theorem State.writeBytes_x (ea : EA) (v : Word) (l : List Nat) (s : State) : (s.writeBytes ea v l).x = s.x := by
  induction l generalizing s with
  | nil => rfl
  | cons i l ih => exact ih _
@[simp] theorem State.writeBytes_y (ea : EA) (v : Word) (l : List Nat) (s : State) : (s.writeBytes ea v l).y = s.y := by
  induction l generalizing s with
  | nil => rfl
  | cons i l ih => exact ih _
@[simp] theorem State.writeBytes_sp (ea : EA) (v : Word) (l : List Nat) (s : State) : (s.writeBytes ea v l).sp = s.sp := by
  induction l generalizing s with
  | nil => rfl
  | cons i l ih => exact ih _
@[simp] theorem State.writeBytes_dr (ea : EA) (v : Word) (l : List Nat) (s : State) : (s.writeBytes ea v l).dr = s.dr := by
  induction l generalizing s with
  | nil => rfl
  | cons i l ih => exact ih _
@[simp] theorem State.writeBytes_pc (ea : EA) (v : Word) (l : List Nat) (s : State) : (s.writeBytes ea v l).pc = s.pc := by
  induction l generalizing s with
  | nil => rfl
  | cons i l ih => exact ih _
@[simp] theorem State.writeBytes_pbr (ea : EA) (v : Word) (l : List Nat) (s : State) : (s.writeBytes ea v l).pbr = s.pbr := by
  induction l generalizing s with
  | nil => rfl
  | cons i l ih => exact ih _
@[simp] theorem State.writeBytes_dbr (ea : EA) (v : Word) (l : List Nat) (s : State) : (s.writeBytes ea v l).dbr = s.dbr := by
  induction l generalizing s with
  | nil => rfl
  | cons i l ih => exact ih _
@[simp] theorem State.writeBytes_p (ea : EA) (v : Word) (l : List Nat) (s : State) : (s.writeBytes ea v l).p = s.p := by
  induction l generalizing s with
  | nil => rfl
  | cons i l ih => exact ih _
@[simp] theorem State.writeBytes_e8 (ea : EA) (v : Word) (l : List Nat) (s : State) : (s.writeBytes ea v l).e8 = s.e8 := by
  induction l generalizing s with
  | nil => rfl
  | cons i l ih => exact ih _
@[simp] theorem State.writeBytes_e16 (ea : EA) (v : Word) (l : List Nat) (s : State) : (s.writeBytes ea v l).e16 = s.e16 := by
  induction l generalizing s with
  | nil => rfl
  | cons i l ih => exact ih _
@[simp] theorem State.writeBytes_run (ea : EA) (v : Word) (l : List Nat) (s : State) : (s.writeBytes ea v l).run = s.run := by
  induction l generalizing s with
  | nil => rfl
  | cons i l ih => exact ih _
@[simp] theorem State.writeBytes_nmiPending (ea : EA) (v : Word) (l : List Nat) (s : State) : (s.writeBytes ea v l).nmiPending = s.nmiPending := by
  induction l generalizing s with
  | nil => rfl
  | cons i l ih => exact ih _
@[simp] theorem State.writeBytes_abortPending (ea : EA) (v : Word) (l : List Nat) (s : State) : (s.writeBytes ea v l).abortPending = s.abortPending := by
  induction l generalizing s with
  | nil => rfl
  | cons i l ih => exact ih _
@[simp] theorem State.writeBytes_cfg (ea : EA) (v : Word) (l : List Nat) (s : State) : (s.writeBytes ea v l).cfg = s.cfg := by
  induction l generalizing s with
  | nil => rfl
  | cons i l ih => exact ih _
@[simp] theorem State.writeBytes_inputs (ea : EA) (v : Word) (l : List Nat) (s : State) : (s.writeBytes ea v l).inputs = s.inputs := by
  induction l generalizing s with
  | nil => rfl
  | cons i l ih => exact ih _
@[simp] theorem State.writeBytes_freeIdx (ea : EA) (v : Word) (l : List Nat) (s : State) : (s.writeBytes ea v l).freeIdx = s.freeIdx := by
  induction l generalizing s with
  | nil => rfl
  | cons i l ih => exact ih _
@[simp] theorem State.writeBytes_emu8 (ea : EA) (v : Word) (l : List Nat) (s : State) : (s.writeBytes ea v l).emu8 = s.emu8 :=
  congrArg₂ (fun a b : Bool => a && b) (State.writeBytes_e16 ea v l s) (State.writeBytes_e8 ea v l s)
@[simp] theorem State.writeBytes_native (ea : EA) (v : Word) (l : List Nat) (s : State) : (s.writeBytes ea v l).native = s.native :=
  congrArg (fun b : Bool => !b) (State.writeBytes_e16 ea v l s)

@[simp] theorem State.memWrite_a (ea : EA) (n : Nat) (v : Word) (s : State) : (s.memWrite ea n v).a = s.a := State.writeBytes_a ea v _ s
@[simp] theorem State.memWrite_x (ea : EA) (n : Nat) (v : Word) (s : State) : (s.memWrite ea n v).x = s.x := State.writeBytes_x ea v _ s
@[simp] theorem State.memWrite_y (ea : EA) (n : Nat) (v : Word) (s : State) : (s.memWrite ea n v).y = s.y := State.writeBytes_y ea v _ s
@[simp] theorem State.memWrite_sp (ea : EA) (n : Nat) (v : Word) (s : State) : (s.memWrite ea n v).sp = s.sp := State.writeBytes_sp ea v _ s
@[simp] theorem State.memWrite_dr (ea : EA) (n : Nat) (v : Word) (s : State) : (s.memWrite ea n v).dr = s.dr := State.writeBytes_dr ea v _ s
@[simp] theorem State.memWrite_pc (ea : EA) (n : Nat) (v : Word) (s : State) : (s.memWrite ea n v).pc = s.pc := State.writeBytes_pc ea v _ s
@[simp] theorem State.memWrite_pbr (ea : EA) (n : Nat) (v : Word) (s : State) : (s.memWrite ea n v).pbr = s.pbr := State.writeBytes_pbr ea v _ s
@[simp] theorem State.memWrite_dbr (ea : EA) (n : Nat) (v : Word) (s : State) : (s.memWrite ea n v).dbr = s.dbr := State.writeBytes_dbr ea v _ s
@[simp] theorem State.memWrite_p (ea : EA) (n : Nat) (v : Word) (s : State) : (s.memWrite ea n v).p = s.p := State.writeBytes_p ea v _ s
@[simp] theorem State.memWrite_e8 (ea : EA) (n : Nat) (v : Word) (s : State) : (s.memWrite ea n v).e8 = s.e8 := State.writeBytes_e8 ea v _ s
@[simp] theorem State.memWrite_e16 (ea : EA) (n : Nat) (v : Word) (s : State) : (s.memWrite ea n v).e16 = s.e16 := State.writeBytes_e16 ea v _ s
@[simp] theorem State.memWrite_run (ea : EA) (n : Nat) (v : Word) (s : State) : (s.memWrite ea n v).run = s.run := State.writeBytes_run ea v _ s
@[simp] theorem State.memWrite_nmiPending (ea : EA) (n : Nat) (v : Word) (s : State) : (s.memWrite ea n v).nmiPending = s.nmiPending := State.writeBytes_nmiPending ea v _ s
@[simp] theorem State.memWrite_abortPending (ea : EA) (n : Nat) (v : Word) (s : State) : (s.memWrite ea n v).abortPending = s.abortPending := State.writeBytes_abortPending ea v _ s
@[simp] theorem State.memWrite_cfg (ea : EA) (n : Nat) (v : Word) (s : State) : (s.memWrite ea n v).cfg = s.cfg := State.writeBytes_cfg ea v _ s
@[simp] theorem State.memWrite_inputs (ea : EA) (n : Nat) (v : Word) (s : State) : (s.memWrite ea n v).inputs = s.inputs := State.writeBytes_inputs ea v _ s
@[simp] theorem State.memWrite_freeIdx (ea : EA) (n : Nat) (v : Word) (s : State) : (s.memWrite ea n v).freeIdx = s.freeIdx := State.writeBytes_freeIdx ea v _ s
@[simp] theorem State.memWrite_emu8 (ea : EA) (n : Nat) (v : Word) (s : State) : (s.memWrite ea n v).emu8 = s.emu8 :=
  congrArg₂ (fun a b : Bool => a && b) (State.memWrite_e16 ea n v s) (State.memWrite_e8 ea n v s)
@[simp] theorem State.memWrite_native (ea : EA) (n : Nat) (v : Word) (s : State) : (s.memWrite ea n v).native = s.native :=
  congrArg (fun b : Bool => !b) (State.memWrite_e16 ea n v s)

@[simp] theorem State.memWriteBack_a (ea : EA) (n : Nat) (v : Word) (s : State) : (s.memWriteBack ea n v).a = s.a := State.writeBytes_a ea v _ s
@[simp] theorem State.memWriteBack_x (ea : EA) (n : Nat) (v : Word) (s : State) : (s.memWriteBack ea n v).x = s.x := State.writeBytes_x ea v _ s
@[simp] theorem State.memWriteBack_y (ea : EA) (n : Nat) (v : Word) (s : State) : (s.memWriteBack ea n v).y = s.y := State.writeBytes_y ea v _ s
@[simp] theorem State.memWriteBack_sp (ea : EA) (n : Nat) (v : Word) (s : State) : (s.memWriteBack ea n v).sp = s.sp := State.writeBytes_sp ea v _ s
@[simp] theorem State.memWriteBack_dr (ea : EA) (n : Nat) (v : Word) (s : State) : (s.memWriteBack ea n v).dr = s.dr := State.writeBytes_dr ea v _ s
@[simp] theorem State.memWriteBack_pc (ea : EA) (n : Nat) (v : Word) (s : State) : (s.memWriteBack ea n v).pc = s.pc := State.writeBytes_pc ea v _ s
@[simp] theorem State.memWriteBack_pbr (ea : EA) (n : Nat) (v : Word) (s : State) : (s.memWriteBack ea n v).pbr = s.pbr := State.writeBytes_pbr ea v _ s
@[simp] theorem State.memWriteBack_dbr (ea : EA) (n : Nat) (v : Word) (s : State) : (s.memWriteBack ea n v).dbr = s.dbr := State.writeBytes_dbr ea v _ s
@[simp] theorem State.memWriteBack_p (ea : EA) (n : Nat) (v : Word) (s : State) : (s.memWriteBack ea n v).p = s.p := State.writeBytes_p ea v _ s
@[simp] theorem State.memWriteBack_e8 (ea : EA) (n : Nat) (v : Word) (s : State) : (s.memWriteBack ea n v).e8 = s.e8 := State.writeBytes_e8 ea v _ s
@[simp] theorem State.memWriteBack_e16 (ea : EA) (n : Nat) (v : Word) (s : State) : (s.memWriteBack ea n v).e16 = s.e16 := State.writeBytes_e16 ea v _ s
@[simp] theorem State.memWriteBack_run (ea : EA) (n : Nat) (v : Word) (s : State) : (s.memWriteBack ea n v).run = s.run := State.writeBytes_run ea v _ s
@[simp] theorem State.memWriteBack_nmiPending (ea : EA) (n : Nat) (v : Word) (s : State) : (s.memWriteBack ea n v).nmiPending = s.nmiPending := State.writeBytes_nmiPending ea v _ s
@[simp] theorem State.memWriteBack_abortPending (ea : EA) (n : Nat) (v : Word) (s : State) : (s.memWriteBack ea n v).abortPending = s.abortPending := State.writeBytes_abortPending ea v _ s
@[simp] theorem State.memWriteBack_cfg (ea : EA) (n : Nat) (v : Word) (s : State) : (s.memWriteBack ea n v).cfg = s.cfg := State.writeBytes_cfg ea v _ s
@[simp] theorem State.memWriteBack_inputs (ea : EA) (n : Nat) (v : Word) (s : State) : (s.memWriteBack ea n v).inputs = s.inputs := State.writeBytes_inputs ea v _ s
@[simp] theorem State.memWriteBack_freeIdx (ea : EA) (n : Nat) (v : Word) (s : State) : (s.memWriteBack ea n v).freeIdx = s.freeIdx := State.writeBytes_freeIdx ea v _ s
@[simp] theorem State.memWriteBack_emu8 (ea : EA) (n : Nat) (v : Word) (s : State) : (s.memWriteBack ea n v).emu8 = s.emu8 :=
  congrArg₂ (fun a b : Bool => a && b) (State.memWriteBack_e16 ea n v s) (State.memWriteBack_e8 ea n v s)
@[simp] theorem State.memWriteBack_native (ea : EA) (n : Nat) (v : Word) (s : State) : (s.memWriteBack ea n v).native = s.native :=
  congrArg (fun b : Bool => !b) (State.memWriteBack_e16 ea n v s)

@[simp] theorem State.push8_a (r : StackRule) (v : Byte) (s : State) : (s.push8 r v).a = s.a := rfl
@[simp] theorem State.push8_x (r : StackRule) (v : Byte) (s : State) : (s.push8 r v).x = s.x := rfl
@[simp] theorem State.push8_y (r : StackRule) (v : Byte) (s : State) : (s.push8 r v).y = s.y := rfl
@[simp] theorem State.push8_dr (r : StackRule) (v : Byte) (s : State) : (s.push8 r v).dr = s.dr := rfl
@[simp] theorem State.push8_pc (r : StackRule) (v : Byte) (s : State) : (s.push8 r v).pc = s.pc := rfl
@[simp] theorem State.push8_pbr (r : StackRule) (v : Byte) (s : State) : (s.push8 r v).pbr = s.pbr := rfl
@[simp] theorem State.push8_dbr (r : StackRule) (v : Byte) (s : State) : (s.push8 r v).dbr = s.dbr := rfl
@[simp] theorem State.push8_p (r : StackRule) (v : Byte) (s : State) : (s.push8 r v).p = s.p := rfl
@[simp] theorem State.push8_e8 (r : StackRule) (v : Byte) (s : State) : (s.push8 r v).e8 = s.e8 := rfl
@[simp] theorem State.push8_e16 (r : StackRule) (v : Byte) (s : State) : (s.push8 r v).e16 = s.e16 := rfl
@[simp] theorem State.push8_run (r : StackRule) (v : Byte) (s : State) : (s.push8 r v).run = s.run := rfl
@[simp] theorem State.push8_nmiPending (r : StackRule) (v : Byte) (s : State) : (s.push8 r v).nmiPending = s.nmiPending := rfl
@[simp] theorem State.push8_abortPending (r : StackRule) (v : Byte) (s : State) : (s.push8 r v).abortPending = s.abortPending := rfl
@[simp] theorem State.push8_cfg (r : StackRule) (v : Byte) (s : State) : (s.push8 r v).cfg = s.cfg := rfl
@[simp] theorem State.push8_inputs (r : StackRule) (v : Byte) (s : State) : (s.push8 r v).inputs = s.inputs := rfl
@[simp] theorem State.push8_freeIdx (r : StackRule) (v : Byte) (s : State) : (s.push8 r v).freeIdx = s.freeIdx := rfl
@[simp] theorem State.push8_emu8 (r : StackRule) (v : Byte) (s : State) : (s.push8 r v).emu8 = s.emu8 :=
  congrArg₂ (fun a b : Bool => a && b) (State.push8_e16 r v s) (State.push8_e8 r v s)
@[simp] theorem State.push8_native (r : StackRule) (v : Byte) (s : State) : (s.push8 r v).native = s.native :=
  congrArg (fun b : Bool => !b) (State.push8_e16 r v s)

@[simp] theorem State.pushN_a (r : StackRule) (v : Word) (n : Nat) (s : State) : (s.pushN r v n).a = s.a := by
  induction n generalizing s with
  | zero => rfl
  | succ n ih => exact ih _
@[simp] theorem State.pushN_x (r : StackRule) (v : Word) (n : Nat) (s : State) : (s.pushN r v n).x = s.x := by
  induction n generalizing s with
  | zero => rfl
  | succ n ih => exact ih _
@[simp] theorem State.pushN_y (r : StackRule) (v : Word) (n : Nat) (s : State) : (s.pushN r v n).y = s.y := by
  induction n generalizing s with
  | zero => rfl
  | succ n ih => exact ih _
@[simp] theorem State.pushN_dr (r : StackRule) (v : Word) (n : Nat) (s : State) : (s.pushN r v n).dr = s.dr := by
  induction n generalizing s with
  | zero => rfl
  | succ n ih => exact ih _
@[simp] theorem State.pushN_pc (r : StackRule) (v : Word) (n : Nat) (s : State) : (s.pushN r v n).pc = s.pc := by
  induction n generalizing s with
  | zero => rfl
  | succ n ih => exact ih _
@[simp] theorem State.pushN_pbr (r : StackRule) (v : Word) (n : Nat) (s : State) : (s.pushN r v n).pbr = s.pbr := by
  induction n generalizing s with
  | zero => rfl
  | succ n ih => exact ih _
@[simp] theorem State.pushN_dbr (r : StackRule) (v : Word) (n : Nat) (s : State) : (s.pushN r v n).dbr = s.dbr := by
  induction n generalizing s with
  | zero => rfl
  | succ n ih => exact ih _
@[simp] theorem State.pushN_p (r : StackRule) (v : Word) (n : Nat) (s : State) : (s.pushN r v n).p = s.p := by
  induction n generalizing s with
  | zero => rfl
  | succ n ih => exact ih _
@[simp] theorem State.pushN_e8 (r : StackRule) (v : Word) (n : Nat) (s : State) : (s.pushN r v n).e8 = s.e8 := by
  induction n generalizing s with
  | zero => rfl
  | succ n ih => exact ih _
@[simp] theorem State.pushN_e16 (r : StackRule) (v : Word) (n : Nat) (s : State) : (s.pushN r v n).e16 = s.e16 := by
  induction n generalizing s with
  | zero => rfl
  | succ n ih => exact ih _
@[simp] theorem State.pushN_run (r : StackRule) (v : Word) (n : Nat) (s : State) : (s.pushN r v n).run = s.run := by
  induction n generalizing s with
  | zero => rfl
  | succ n ih => exact ih _
@[simp] theorem State.pushN_nmiPending (r : StackRule) (v : Word) (n : Nat) (s : State) : (s.pushN r v n).nmiPending = s.nmiPending := by
  induction n generalizing s with
  | zero => rfl
  | succ n ih => exact ih _
@[simp] theorem State.pushN_abortPending (r : StackRule) (v : Word) (n : Nat) (s : State) : (s.pushN r v n).abortPending = s.abortPending := by
  induction n generalizing s with
  | zero => rfl
  | succ n ih => exact ih _
@[simp] theorem State.pushN_cfg (r : StackRule) (v : Word) (n : Nat) (s : State) : (s.pushN r v n).cfg = s.cfg := by
  induction n generalizing s with
  | zero => rfl
  | succ n ih => exact ih _
@[simp] theorem State.pushN_inputs (r : StackRule) (v : Word) (n : Nat) (s : State) : (s.pushN r v n).inputs = s.inputs := by
  induction n generalizing s with
  | zero => rfl
  | succ n ih => exact ih _
@[simp] theorem State.pushN_freeIdx (r : StackRule) (v : Word) (n : Nat) (s : State) : (s.pushN r v n).freeIdx = s.freeIdx := by
  induction n generalizing s with
  | zero => rfl
  | succ n ih => exact ih _
@[simp] theorem State.pushN_emu8 (r : StackRule) (v : Word) (n : Nat) (s : State) : (s.pushN r v n).emu8 = s.emu8 :=
  congrArg₂ (fun a b : Bool => a && b) (State.pushN_e16 r v n s) (State.pushN_e8 r v n s)
@[simp] theorem State.pushN_native (r : StackRule) (v : Word) (n : Nat) (s : State) : (s.pushN r v n).native = s.native :=
  congrArg (fun b : Bool => !b) (State.pushN_e16 r v n s)

@[simp] theorem State.pull8_a (r : StackRule) (s : State) : ((s.pull8 r).2).a = s.a := rfl
@[simp] theorem State.pull8_x (r : StackRule) (s : State) : ((s.pull8 r).2).x = s.x := rfl
@[simp] theorem State.pull8_y (r : StackRule) (s : State) : ((s.pull8 r).2).y = s.y := rfl
@[simp] theorem State.pull8_dr (r : StackRule) (s : State) : ((s.pull8 r).2).dr = s.dr := rfl
@[simp] theorem State.pull8_pc (r : StackRule) (s : State) : ((s.pull8 r).2).pc = s.pc := rfl
@[simp] theorem State.pull8_pbr (r : StackRule) (s : State) : ((s.pull8 r).2).pbr = s.pbr := rfl
@[simp] theorem State.pull8_dbr (r : StackRule) (s : State) : ((s.pull8 r).2).dbr = s.dbr := rfl
@[simp] theorem State.pull8_p (r : StackRule) (s : State) : ((s.pull8 r).2).p = s.p := rfl
@[simp] theorem State.pull8_e8 (r : StackRule) (s : State) : ((s.pull8 r).2).e8 = s.e8 := rfl
@[simp] theorem State.pull8_e16 (r : StackRule) (s : State) : ((s.pull8 r).2).e16 = s.e16 := rfl
@[simp] theorem State.pull8_run (r : StackRule) (s : State) : ((s.pull8 r).2).run = s.run := rfl
@[simp] theorem State.pull8_nmiPending (r : StackRule) (s : State) : ((s.pull8 r).2).nmiPending = s.nmiPending := rfl
@[simp] theorem State.pull8_abortPending (r : StackRule) (s : State) : ((s.pull8 r).2).abortPending = s.abortPending := rfl
@[simp] theorem State.pull8_mem (r : StackRule) (s : State) : ((s.pull8 r).2).mem = s.mem := rfl
@[simp] theorem State.pull8_cfg (r : StackRule) (s : State) : ((s.pull8 r).2).cfg = s.cfg := rfl
@[simp] theorem State.pull8_inputs (r : StackRule) (s : State) : ((s.pull8 r).2).inputs = s.inputs := rfl
@[simp] theorem State.pull8_freeIdx (r : StackRule) (s : State) : ((s.pull8 r).2).freeIdx = s.freeIdx := rfl
@[simp] theorem State.pull8_emu8 (r : StackRule) (s : State) : ((s.pull8 r).2).emu8 = s.emu8 :=
  congrArg₂ (fun a b : Bool => a && b) (State.pull8_e16 r s) (State.pull8_e8 r s)
@[simp] theorem State.pull8_native (r : StackRule) (s : State) : ((s.pull8 r).2).native = s.native :=
  congrArg (fun b : Bool => !b) (State.pull8_e16 r s)

@[simp] theorem State.pullN_a (r : StackRule) (n : Nat) (s : State) : ((s.pullN r n).2).a = s.a := by
  induction n with
  | zero => rfl
  | succ n ih => exact ih
@[simp] theorem State.pullN_x (r : StackRule) (n : Nat) (s : State) : ((s.pullN r n).2).x = s.x := by
  induction n with
  | zero => rfl
  | succ n ih => exact ih
@[simp] theorem State.pullN_y (r : StackRule) (n : Nat) (s : State) : ((s.pullN r n).2).y = s.y := by
  induction n with
  | zero => rfl
  | succ n ih => exact ih
@[simp] theorem State.pullN_dr (r : StackRule) (n : Nat) (s : State) : ((s.pullN r n).2).dr = s.dr := by
  induction n with
  | zero => rfl
  | succ n ih => exact ih
@[simp] theorem State.pullN_pc (r : StackRule) (n : Nat) (s : State) : ((s.pullN r n).2).pc = s.pc := by
  induction n with
  | zero => rfl
  | succ n ih => exact ih
@[simp] theorem State.pullN_pbr (r : StackRule) (n : Nat) (s : State) : ((s.pullN r n).2).pbr = s.pbr := by
  induction n with
  | zero => rfl
  | succ n ih => exact ih
@[simp] theorem State.pullN_dbr (r : StackRule) (n : Nat) (s : State) : ((s.pullN r n).2).dbr = s.dbr := by
  induction n with
  | zero => rfl
  | succ n ih => exact ih
@[simp] theorem State.pullN_p (r : StackRule) (n : Nat) (s : State) : ((s.pullN r n).2).p = s.p := by
  induction n with
  | zero => rfl
  | succ n ih => exact ih
@[simp] theorem State.pullN_e8 (r : StackRule) (n : Nat) (s : State) : ((s.pullN r n).2).e8 = s.e8 := by
  induction n with
  | zero => rfl
  | succ n ih => exact ih
@[simp] theorem State.pullN_e16 (r : StackRule) (n : Nat) (s : State) : ((s.pullN r n).2).e16 = s.e16 := by
  induction n with
  | zero => rfl
  | succ n ih => exact ih
@[simp] theorem State.pullN_run (r : StackRule) (n : Nat) (s : State) : ((s.pullN r n).2).run = s.run := by
  induction n with
  | zero => rfl
  | succ n ih => exact ih
@[simp] theorem State.pullN_nmiPending (r : StackRule) (n : Nat) (s : State) : ((s.pullN r n).2).nmiPending = s.nmiPending := by
  induction n with
  | zero => rfl
  | succ n ih => exact ih
@[simp] theorem State.pullN_abortPending (r : StackRule) (n : Nat) (s : State) : ((s.pullN r n).2).abortPending = s.abortPending := by
  induction n with
  | zero => rfl
  | succ n ih => exact ih
@[simp] theorem State.pullN_mem (r : StackRule) (n : Nat) (s : State) : ((s.pullN r n).2).mem = s.mem := by
  induction n with
  | zero => rfl
  | succ n ih => exact ih
@[simp] theorem State.pullN_cfg (r : StackRule) (n : Nat) (s : State) : ((s.pullN r n).2).cfg = s.cfg := by
  induction n with
  | zero => rfl
  | succ n ih => exact ih
@[simp] theorem State.pullN_inputs (r : StackRule) (n : Nat) (s : State) : ((s.pullN r n).2).inputs = s.inputs := by
  induction n with
  | zero => rfl
  | succ n ih => exact ih
@[simp] theorem State.pullN_freeIdx (r : StackRule) (n : Nat) (s : State) : ((s.pullN r n).2).freeIdx = s.freeIdx := by
  induction n with
  | zero => rfl
  | succ n ih => exact ih
@[simp] theorem State.pullN_emu8 (r : StackRule) (n : Nat) (s : State) : ((s.pullN r n).2).emu8 = s.emu8 :=
  congrArg₂ (fun a b : Bool => a && b) (State.pullN_e16 r n s) (State.pullN_e8 r n s)
@[simp] theorem State.pullN_native (r : StackRule) (n : Nat) (s : State) : ((s.pullN r n).2).native = s.native :=
  congrArg (fun b : Bool => !b) (State.pullN_e16 r n s)

@[simp] theorem State.forceSH_a (s : State) : (s.forceSH).a = s.a := rfl
@[simp] theorem State.forceSH_x (s : State) : (s.forceSH).x = s.x := rfl
@[simp] theorem State.forceSH_y (s : State) : (s.forceSH).y = s.y := rfl
@[simp] theorem State.forceSH_dr (s : State) : (s.forceSH).dr = s.dr := rfl
@[simp] theorem State.forceSH_pc (s : State) : (s.forceSH).pc = s.pc := rfl
@[simp] theorem State.forceSH_pbr (s : State) : (s.forceSH).pbr = s.pbr := rfl
@[simp] theorem State.forceSH_dbr (s : State) : (s.forceSH).dbr = s.dbr := rfl
@[simp] theorem State.forceSH_p (s : State) : (s.forceSH).p = s.p := rfl
@[simp] theorem State.forceSH_e8 (s : State) : (s.forceSH).e8 = s.e8 := rfl
@[simp] theorem State.forceSH_e16 (s : State) : (s.forceSH).e16 = s.e16 := rfl
@[simp] theorem State.forceSH_run (s : State) : (s.forceSH).run = s.run := rfl
@[simp] theorem State.forceSH_nmiPending (s : State) : (s.forceSH).nmiPending = s.nmiPending := rfl
@[simp] theorem State.forceSH_abortPending (s : State) : (s.forceSH).abortPending = s.abortPending := rfl
@[simp] theorem State.forceSH_mem (s : State) : (s.forceSH).mem = s.mem := rfl
@[simp] theorem State.forceSH_cfg (s : State) : (s.forceSH).cfg = s.cfg := rfl
@[simp] theorem State.forceSH_inputs (s : State) : (s.forceSH).inputs = s.inputs := rfl
@[simp] theorem State.forceSH_bus (s : State) : (s.forceSH).bus = s.bus := rfl
@[simp] theorem State.forceSH_freeIdx (s : State) : (s.forceSH).freeIdx = s.freeIdx := rfl
@[simp] theorem State.forceSH_emu8 (s : State) : (s.forceSH).emu8 = s.emu8 :=
  congrArg₂ (fun a b : Bool => a && b) (State.forceSH_e16 s) (State.forceSH_e8 s)
@[simp] theorem State.forceSH_native (s : State) : (s.forceSH).native = s.native :=
  congrArg (fun b : Bool => !b) (State.forceSH_e16 s)

@[simp] theorem State.writeP_a (b : Byte) (s : State) : (s.writeP b).a = s.a := rfl
@[simp] theorem State.writeP_x (b : Byte) (s : State) : (s.writeP b).x = s.x := rfl
@[simp] theorem State.writeP_y (b : Byte) (s : State) : (s.writeP b).y = s.y := rfl
@[simp] theorem State.writeP_sp (b : Byte) (s : State) : (s.writeP b).sp = s.sp := rfl
@[simp] theorem State.writeP_dr (b : Byte) (s : State) : (s.writeP b).dr = s.dr := rfl
@[simp] theorem State.writeP_pc (b : Byte) (s : State) : (s.writeP b).pc = s.pc := rfl
@[simp] theorem State.writeP_pbr (b : Byte) (s : State) : (s.writeP b).pbr = s.pbr := rfl
@[simp] theorem State.writeP_dbr (b : Byte) (s : State) : (s.writeP b).dbr = s.dbr := rfl
@[simp] theorem State.writeP_e8 (b : Byte) (s : State) : (s.writeP b).e8 = s.e8 := rfl
@[simp] theorem State.writeP_e16 (b : Byte) (s : State) : (s.writeP b).e16 = s.e16 := rfl
@[simp] theorem State.writeP_run (b : Byte) (s : State) : (s.writeP b).run = s.run := rfl
@[simp] theorem State.writeP_nmiPending (b : Byte) (s : State) : (s.writeP b).nmiPending = s.nmiPending := rfl
@[simp] theorem State.writeP_abortPending (b : Byte) (s : State) : (s.writeP b).abortPending = s.abortPending := rfl
@[simp] theorem State.writeP_mem (b : Byte) (s : State) : (s.writeP b).mem = s.mem := rfl
@[simp] theorem State.writeP_cfg (b : Byte) (s : State) : (s.writeP b).cfg = s.cfg := rfl
@[simp] theorem State.writeP_inputs (b : Byte) (s : State) : (s.writeP b).inputs = s.inputs := rfl
@[simp] theorem State.writeP_bus (b : Byte) (s : State) : (s.writeP b).bus = s.bus := rfl
@[simp] theorem State.writeP_freeIdx (b : Byte) (s : State) : (s.writeP b).freeIdx = s.freeIdx := rfl
@[simp] theorem State.writeP_emu8 (b : Byte) (s : State) : (s.writeP b).emu8 = s.emu8 :=
  congrArg₂ (fun a b : Bool => a && b) (State.writeP_e16 b s) (State.writeP_e8 b s)
@[simp] theorem State.writeP_native (b : Byte) (s : State) : (s.writeP b).native = s.native :=
  congrArg (fun b : Bool => !b) (State.writeP_e16 b s)

@[simp] theorem State.normEmu8_a (s : State) : (s.normEmu8).a = s.a := by delta State.normEmu8; split <;> rfl
@[simp] theorem State.normEmu8_x (s : State) : (s.normEmu8).x = s.x := by delta State.normEmu8; split <;> rfl
@[simp] theorem State.normEmu8_y (s : State) : (s.normEmu8).y = s.y := by delta State.normEmu8; split <;> rfl
@[simp] theorem State.normEmu8_dr (s : State) : (s.normEmu8).dr = s.dr := by delta State.normEmu8; split <;> rfl
@[simp] theorem State.normEmu8_pc (s : State) : (s.normEmu8).pc = s.pc := by delta State.normEmu8; split <;> rfl
@[simp] theorem State.normEmu8_pbr (s : State) : (s.normEmu8).pbr = s.pbr := by delta State.normEmu8; split <;> rfl
@[simp] theorem State.normEmu8_dbr (s : State) : (s.normEmu8).dbr = s.dbr := by delta State.normEmu8; split <;> rfl
@[simp] theorem State.normEmu8_e8 (s : State) : (s.normEmu8).e8 = s.e8 := by delta State.normEmu8; split <;> rfl
@[simp] theorem State.normEmu8_e16 (s : State) : (s.normEmu8).e16 = s.e16 := by delta State.normEmu8; split <;> rfl
@[simp] theorem State.normEmu8_run (s : State) : (s.normEmu8).run = s.run := by delta State.normEmu8; split <;> rfl
@[simp] theorem State.normEmu8_nmiPending (s : State) : (s.normEmu8).nmiPending = s.nmiPending := by delta State.normEmu8; split <;> rfl
@[simp] theorem State.normEmu8_abortPending (s : State) : (s.normEmu8).abortPending = s.abortPending := by delta State.normEmu8; split <;> rfl
@[simp] theorem State.normEmu8_mem (s : State) : (s.normEmu8).mem = s.mem := by delta State.normEmu8; split <;> rfl
@[simp] theorem State.normEmu8_cfg (s : State) : (s.normEmu8).cfg = s.cfg := by delta State.normEmu8; split <;> rfl
@[simp] theorem State.normEmu8_inputs (s : State) : (s.normEmu8).inputs = s.inputs := by delta State.normEmu8; split <;> rfl
@[simp] theorem State.normEmu8_bus (s : State) : (s.normEmu8).bus = s.bus := by delta State.normEmu8; split <;> rfl
@[simp] theorem State.normEmu8_freeIdx (s : State) : (s.normEmu8).freeIdx = s.freeIdx := by delta State.normEmu8; split <;> rfl
@[simp] theorem State.normEmu8_emu8 (s : State) : (s.normEmu8).emu8 = s.emu8 :=
  congrArg₂ (fun a b : Bool => a && b) (State.normEmu8_e16 s) (State.normEmu8_e8 s)
@[simp] theorem State.normEmu8_native (s : State) : (s.normEmu8).native = s.native :=
  congrArg (fun b : Bool => !b) (State.normEmu8_e16 s)

@[simp] theorem State.normIndex_a (s : State) : (s.normIndex).a = s.a := by delta State.normIndex; split <;> rfl
@[simp] theorem State.normIndex_sp (s : State) : (s.normIndex).sp = s.sp := by delta State.normIndex; split <;> rfl
@[simp] theorem State.normIndex_dr (s : State) : (s.normIndex).dr = s.dr := by delta State.normIndex; split <;> rfl
@[simp] theorem State.normIndex_pc (s : State) : (s.normIndex).pc = s.pc := by delta State.normIndex; split <;> rfl
@[simp] theorem State.normIndex_pbr (s : State) : (s.normIndex).pbr = s.pbr := by delta State.normIndex; split <;> rfl
@[simp] theorem State.normIndex_dbr (s : State) : (s.normIndex).dbr = s.dbr := by delta State.normIndex; split <;> rfl
@[simp] theorem State.normIndex_p (s : State) : (s.normIndex).p = s.p := by delta State.normIndex; split <;> rfl
@[simp] theorem State.normIndex_e8 (s : State) : (s.normIndex).e8 = s.e8 := by delta State.normIndex; split <;> rfl
@[simp] theorem State.normIndex_e16 (s : State) : (s.normIndex).e16 = s.e16 := by delta State.normIndex; split <;> rfl
@[simp] theorem State.normIndex_run (s : State) : (s.normIndex).run = s.run := by delta State.normIndex; split <;> rfl
@[simp] theorem State.normIndex_nmiPending (s : State) : (s.normIndex).nmiPending = s.nmiPending := by delta State.normIndex; split <;> rfl
@[simp] theorem State.normIndex_abortPending (s : State) : (s.normIndex).abortPending = s.abortPending := by delta State.normIndex; split <;> rfl
@[simp] theorem State.normIndex_mem (s : State) : (s.normIndex).mem = s.mem := by delta State.normIndex; split <;> rfl
@[simp] theorem State.normIndex_cfg (s : State) : (s.normIndex).cfg = s.cfg := by delta State.normIndex; split <;> rfl
@[simp] theorem State.normIndex_inputs (s : State) : (s.normIndex).inputs = s.inputs := by delta State.normIndex; split <;> rfl
@[simp] theorem State.normIndex_bus (s : State) : (s.normIndex).bus = s.bus := by delta State.normIndex; split <;> rfl
@[simp] theorem State.normIndex_freeIdx (s : State) : (s.normIndex).freeIdx = s.freeIdx := by delta State.normIndex; split <;> rfl
@[simp] theorem State.normIndex_emu8 (s : State) : (s.normIndex).emu8 = s.emu8 :=
  congrArg₂ (fun a b : Bool => a && b) (State.normIndex_e16 s) (State.normIndex_e8 s)
@[simp] theorem State.normIndex_native (s : State) : (s.normIndex).native = s.native :=
  congrArg (fun b : Bool => !b) (State.normIndex_e16 s)

@[simp] theorem State.normWiden_a (w : Width) (s : State) : (s.normWiden w).a = s.a := by
  delta State.normWiden; split
  · split <;> rfl
  · rfl
@[simp] theorem State.normWiden_sp (w : Width) (s : State) : (s.normWiden w).sp = s.sp := by
  delta State.normWiden; split
  · split <;> rfl
  · rfl
@[simp] theorem State.normWiden_dr (w : Width) (s : State) : (s.normWiden w).dr = s.dr := by
  delta State.normWiden; split
  · split <;> rfl
  · rfl
@[simp] theorem State.normWiden_pc (w : Width) (s : State) : (s.normWiden w).pc = s.pc := by
  delta State.normWiden; split
  · split <;> rfl
  · rfl
@[simp] theorem State.normWiden_pbr (w : Width) (s : State) : (s.normWiden w).pbr = s.pbr := by
  delta State.normWiden; split
  · split <;> rfl
  · rfl
@[simp] theorem State.normWiden_dbr (w : Width) (s : State) : (s.normWiden w).dbr = s.dbr := by
  delta State.normWiden; split
  · split <;> rfl
  · rfl
@[simp] theorem State.normWiden_p (w : Width) (s : State) : (s.normWiden w).p = s.p := by
  delta State.normWiden; split
  · split <;> rfl
  · rfl
@[simp] theorem State.normWiden_e8 (w : Width) (s : State) : (s.normWiden w).e8 = s.e8 := by
  delta State.normWiden; split
  · split <;> rfl
  · rfl
@[simp] theorem State.normWiden_e16 (w : Width) (s : State) : (s.normWiden w).e16 = s.e16 := by
  delta State.normWiden; split
  · split <;> rfl
  · rfl
@[simp] theorem State.normWiden_run (w : Width) (s : State) : (s.normWiden w).run = s.run := by
  delta State.normWiden; split
  · split <;> rfl
  · rfl
@[simp] theorem State.normWiden_nmiPending (w : Width) (s : State) : (s.normWiden w).nmiPending = s.nmiPending := by
  delta State.normWiden; split
  · split <;> rfl
  · rfl
@[simp] theorem State.normWiden_abortPending (w : Width) (s : State) : (s.normWiden w).abortPending = s.abortPending := by
  delta State.normWiden; split
  · split <;> rfl
  · rfl
@[simp] theorem State.normWiden_mem (w : Width) (s : State) : (s.normWiden w).mem = s.mem := by
  delta State.normWiden; split
  · split <;> rfl
  · rfl
@[simp] theorem State.normWiden_cfg (w : Width) (s : State) : (s.normWiden w).cfg = s.cfg := by
  delta State.normWiden; split
  · split <;> rfl
  · rfl
@[simp] theorem State.normWiden_inputs (w : Width) (s : State) : (s.normWiden w).inputs = s.inputs := by
  delta State.normWiden; split
  · split <;> rfl
  · rfl
@[simp] theorem State.normWiden_bus (w : Width) (s : State) : (s.normWiden w).bus = s.bus := by
  delta State.normWiden; split
  · split <;> rfl
  · rfl
@[simp] theorem State.normWiden_emu8 (w : Width) (s : State) : (s.normWiden w).emu8 = s.emu8 :=
  congrArg₂ (fun a b : Bool => a && b) (State.normWiden_e16 w s) (State.normWiden_e8 w s)
@[simp] theorem State.normWiden_native (w : Width) (s : State) : (s.normWiden w).native = s.native :=
  congrArg (fun b : Bool => !b) (State.normWiden_e16 w s)

@[simp] theorem State.normalise_a (w : Width) (s : State) : (s.normalise w).a = s.a := (State.normWiden_a w _).trans ((State.normIndex_a _).trans (State.normEmu8_a s))
@[simp] theorem State.normalise_dr (w : Width) (s : State) : (s.normalise w).dr = s.dr := (State.normWiden_dr w _).trans ((State.normIndex_dr _).trans (State.normEmu8_dr s))
@[simp] theorem State.normalise_pc (w : Width) (s : State) : (s.normalise w).pc = s.pc := (State.normWiden_pc w _).trans ((State.normIndex_pc _).trans (State.normEmu8_pc s))
@[simp] theorem State.normalise_pbr (w : Width) (s : State) : (s.normalise w).pbr = s.pbr := (State.normWiden_pbr w _).trans ((State.normIndex_pbr _).trans (State.normEmu8_pbr s))
@[simp] theorem State.normalise_dbr (w : Width) (s : State) : (s.normalise w).dbr = s.dbr := (State.normWiden_dbr w _).trans ((State.normIndex_dbr _).trans (State.normEmu8_dbr s))
@[simp] theorem State.normalise_e8 (w : Width) (s : State) : (s.normalise w).e8 = s.e8 := (State.normWiden_e8 w _).trans ((State.normIndex_e8 _).trans (State.normEmu8_e8 s))
@[simp] theorem State.normalise_e16 (w : Width) (s : State) : (s.normalise w).e16 = s.e16 := (State.normWiden_e16 w _).trans ((State.normIndex_e16 _).trans (State.normEmu8_e16 s))
@[simp] theorem State.normalise_run (w : Width) (s : State) : (s.normalise w).run = s.run := (State.normWiden_run w _).trans ((State.normIndex_run _).trans (State.normEmu8_run s))
@[simp] theorem State.normalise_nmiPending (w : Width) (s : State) : (s.normalise w).nmiPending = s.nmiPending := (State.normWiden_nmiPending w _).trans ((State.normIndex_nmiPending _).trans (State.normEmu8_nmiPending s))
@[simp] theorem State.normalise_abortPending (w : Width) (s : State) : (s.normalise w).abortPending = s.abortPending := (State.normWiden_abortPending w _).trans ((State.normIndex_abortPending _).trans (State.normEmu8_abortPending s))
@[simp] theorem State.normalise_mem (w : Width) (s : State) : (s.normalise w).mem = s.mem := (State.normWiden_mem w _).trans ((State.normIndex_mem _).trans (State.normEmu8_mem s))
@[simp] theorem State.normalise_cfg (w : Width) (s : State) : (s.normalise w).cfg = s.cfg := (State.normWiden_cfg w _).trans ((State.normIndex_cfg _).trans (State.normEmu8_cfg s))
@[simp] theorem State.normalise_inputs (w : Width) (s : State) : (s.normalise w).inputs = s.inputs := (State.normWiden_inputs w _).trans ((State.normIndex_inputs _).trans (State.normEmu8_inputs s))
@[simp] theorem State.normalise_bus (w : Width) (s : State) : (s.normalise w).bus = s.bus := (State.normWiden_bus w _).trans ((State.normIndex_bus _).trans (State.normEmu8_bus s))
@[simp] theorem State.normalise_emu8 (w : Width) (s : State) : (s.normalise w).emu8 = s.emu8 :=
  congrArg₂ (fun a b : Bool => a && b) (State.normalise_e16 w s) (State.normalise_e8 w s)
@[simp] theorem State.normalise_native (w : Width) (s : State) : (s.normalise w).native = s.native :=
  congrArg (fun b : Bool => !b) (State.normalise_e16 w s)

@[simp] theorem State.pushFrame_a (ret : Half) (b : Bool) (s : State) : (s.pushFrame ret b).a = s.a := by
  refine (State.push8_a _ _ _).trans ((State.pushN_a _ _ _ _).trans ?_); split <;> rfl
@[simp] theorem State.pushFrame_x (ret : Half) (b : Bool) (s : State) : (s.pushFrame ret b).x = s.x := by
  refine (State.push8_x _ _ _).trans ((State.pushN_x _ _ _ _).trans ?_); split <;> rfl
@[simp] theorem State.pushFrame_y (ret : Half) (b : Bool) (s : State) : (s.pushFrame ret b).y = s.y := by
  refine (State.push8_y _ _ _).trans ((State.pushN_y _ _ _ _).trans ?_); split <;> rfl
@[simp] theorem State.pushFrame_dr (ret : Half) (b : Bool) (s : State) : (s.pushFrame ret b).dr = s.dr := by
  refine (State.push8_dr _ _ _).trans ((State.pushN_dr _ _ _ _).trans ?_); split <;> rfl
@[simp] theorem State.pushFrame_pc (ret : Half) (b : Bool) (s : State) : (s.pushFrame ret b).pc = s.pc := by
  refine (State.push8_pc _ _ _).trans ((State.pushN_pc _ _ _ _).trans ?_); split <;> rfl
@[simp] theorem State.pushFrame_pbr (ret : Half) (b : Bool) (s : State) : (s.pushFrame ret b).pbr = s.pbr := by
  refine (State.push8_pbr _ _ _).trans ((State.pushN_pbr _ _ _ _).trans ?_); split <;> rfl
@[simp] theorem State.pushFrame_dbr (ret : Half) (b : Bool) (s : State) : (s.pushFrame ret b).dbr = s.dbr := by
  refine (State.push8_dbr _ _ _).trans ((State.pushN_dbr _ _ _ _).trans ?_); split <;> rfl
@[simp] theorem State.pushFrame_p (ret : Half) (b : Bool) (s : State) : (s.pushFrame ret b).p = s.p := by
  refine (State.push8_p _ _ _).trans ((State.pushN_p _ _ _ _).trans ?_); split <;> rfl
@[simp] theorem State.pushFrame_e8 (ret : Half) (b : Bool) (s : State) : (s.pushFrame ret b).e8 = s.e8 := by
  refine (State.push8_e8 _ _ _).trans ((State.pushN_e8 _ _ _ _).trans ?_); split <;> rfl
@[simp] theorem State.pushFrame_e16 (ret : Half) (b : Bool) (s : State) : (s.pushFrame ret b).e16 = s.e16 := by
  refine (State.push8_e16 _ _ _).trans ((State.pushN_e16 _ _ _ _).trans ?_); split <;> rfl
@[simp] theorem State.pushFrame_run (ret : Half) (b : Bool) (s : State) : (s.pushFrame ret b).run = s.run := by
  refine (State.push8_run _ _ _).trans ((State.pushN_run _ _ _ _).trans ?_); split <;> rfl
@[simp] theorem State.pushFrame_nmiPending (ret : Half) (b : Bool) (s : State) : (s.pushFrame ret b).nmiPending = s.nmiPending := by
  refine (State.push8_nmiPending _ _ _).trans ((State.pushN_nmiPending _ _ _ _).trans ?_); split <;> rfl
@[simp] theorem State.pushFrame_abortPending (ret : Half) (b : Bool) (s : State) : (s.pushFrame ret b).abortPending = s.abortPending := by
  refine (State.push8_abortPending _ _ _).trans ((State.pushN_abortPending _ _ _ _).trans ?_); split <;> rfl
@[simp] theorem State.pushFrame_cfg (ret : Half) (b : Bool) (s : State) : (s.pushFrame ret b).cfg = s.cfg := by
  refine (State.push8_cfg _ _ _).trans ((State.pushN_cfg _ _ _ _).trans ?_); split <;> rfl
@[simp] theorem State.pushFrame_inputs (ret : Half) (b : Bool) (s : State) : (s.pushFrame ret b).inputs = s.inputs := by
  refine (State.push8_inputs _ _ _).trans ((State.pushN_inputs _ _ _ _).trans ?_); split <;> rfl
@[simp] theorem State.pushFrame_freeIdx (ret : Half) (b : Bool) (s : State) : (s.pushFrame ret b).freeIdx = s.freeIdx := by
  refine (State.push8_freeIdx _ _ _).trans ((State.pushN_freeIdx _ _ _ _).trans ?_); split <;> rfl
@[simp] theorem State.pushFrame_emu8 (ret : Half) (b : Bool) (s : State) : (s.pushFrame ret b).emu8 = s.emu8 :=
  congrArg₂ (fun a b : Bool => a && b) (State.pushFrame_e16 ret b s) (State.pushFrame_e8 ret b s)
@[simp] theorem State.pushFrame_native (ret : Half) (b : Bool) (s : State) : (s.pushFrame ret b).native = s.native :=
  congrArg (fun b : Bool => !b) (State.pushFrame_e16 ret b s)

@[simp] theorem State.enterVector_a (v : Half) (s : State) : (s.enterVector v).a = s.a := rfl
@[simp] theorem State.enterVector_x (v : Half) (s : State) : (s.enterVector v).x = s.x := rfl
@[simp] theorem State.enterVector_y (v : Half) (s : State) : (s.enterVector v).y = s.y := rfl
@[simp] theorem State.enterVector_sp (v : Half) (s : State) : (s.enterVector v).sp = s.sp := rfl
@[simp] theorem State.enterVector_dr (v : Half) (s : State) : (s.enterVector v).dr = s.dr := rfl
@[simp] theorem State.enterVector_pbr (v : Half) (s : State) : (s.enterVector v).pbr = s.pbr := rfl
@[simp] theorem State.enterVector_dbr (v : Half) (s : State) : (s.enterVector v).dbr = s.dbr := rfl
@[simp] theorem State.enterVector_p (v : Half) (s : State) : (s.enterVector v).p = s.p := rfl
@[simp] theorem State.enterVector_e8 (v : Half) (s : State) : (s.enterVector v).e8 = s.e8 := rfl
@[simp] theorem State.enterVector_e16 (v : Half) (s : State) : (s.enterVector v).e16 = s.e16 := rfl
@[simp] theorem State.enterVector_run (v : Half) (s : State) : (s.enterVector v).run = s.run := rfl
@[simp] theorem State.enterVector_nmiPending (v : Half) (s : State) : (s.enterVector v).nmiPending = s.nmiPending := rfl
@[simp] theorem State.enterVector_abortPending (v : Half) (s : State) : (s.enterVector v).abortPending = s.abortPending := rfl
@[simp] theorem State.enterVector_mem (v : Half) (s : State) : (s.enterVector v).mem = s.mem := rfl
@[simp] theorem State.enterVector_cfg (v : Half) (s : State) : (s.enterVector v).cfg = s.cfg := rfl
@[simp] theorem State.enterVector_inputs (v : Half) (s : State) : (s.enterVector v).inputs = s.inputs := rfl
@[simp] theorem State.enterVector_freeIdx (v : Half) (s : State) : (s.enterVector v).freeIdx = s.freeIdx := rfl
@[simp] theorem State.enterVector_emu8 (v : Half) (s : State) : (s.enterVector v).emu8 = s.emu8 :=
  congrArg₂ (fun a b : Bool => a && b) (State.enterVector_e16 v s) (State.enterVector_e8 v s)
@[simp] theorem State.enterVector_native (v : Half) (s : State) : (s.enterVector v).native = s.native :=
  congrArg (fun b : Bool => !b) (State.enterVector_e16 v s)

@[simp] theorem State.interrupt_a (src : IntSource) (ret : Half) (b : Bool) (s : State) : (s.interrupt src ret b).a = s.a := by
  delta State.interrupt; dsimp only; rw [State.setRun_a, State.enterVector_a]
  split <;> simp only [State.setDbr_a, State.setPbr_a, State.setP_a, State.pushFrame_a]
@[simp] theorem State.interrupt_x (src : IntSource) (ret : Half) (b : Bool) (s : State) : (s.interrupt src ret b).x = s.x := by
  delta State.interrupt; dsimp only; rw [State.setRun_x, State.enterVector_x]
  split <;> simp only [State.setDbr_x, State.setPbr_x, State.setP_x, State.pushFrame_x]
@[simp] theorem State.interrupt_y (src : IntSource) (ret : Half) (b : Bool) (s : State) : (s.interrupt src ret b).y = s.y := by
  delta State.interrupt; dsimp only; rw [State.setRun_y, State.enterVector_y]
  split <;> simp only [State.setDbr_y, State.setPbr_y, State.setP_y, State.pushFrame_y]
@[simp] theorem State.interrupt_dr (src : IntSource) (ret : Half) (b : Bool) (s : State) : (s.interrupt src ret b).dr = s.dr := by
  delta State.interrupt; dsimp only; rw [State.setRun_dr, State.enterVector_dr]
  split <;> simp only [State.setDbr_dr, State.setPbr_dr, State.setP_dr, State.pushFrame_dr]
@[simp] theorem State.interrupt_e8 (src : IntSource) (ret : Half) (b : Bool) (s : State) : (s.interrupt src ret b).e8 = s.e8 := by
  delta State.interrupt; dsimp only; rw [State.setRun_e8, State.enterVector_e8]
  split <;> simp only [State.setDbr_e8, State.setPbr_e8, State.setP_e8, State.pushFrame_e8]
@[simp] theorem State.interrupt_e16 (src : IntSource) (ret : Half) (b : Bool) (s : State) : (s.interrupt src ret b).e16 = s.e16 := by
  delta State.interrupt; dsimp only; rw [State.setRun_e16, State.enterVector_e16]
  split <;> simp only [State.setDbr_e16, State.setPbr_e16, State.setP_e16, State.pushFrame_e16]
@[simp] theorem State.interrupt_nmiPending (src : IntSource) (ret : Half) (b : Bool) (s : State) : (s.interrupt src ret b).nmiPending = s.nmiPending := by
  delta State.interrupt; dsimp only; rw [State.setRun_nmiPending, State.enterVector_nmiPending]
  split <;> simp only [State.setDbr_nmiPending, State.setPbr_nmiPending, State.setP_nmiPending, State.pushFrame_nmiPending]
@[simp] theorem State.interrupt_abortPending (src : IntSource) (ret : Half) (b : Bool) (s : State) : (s.interrupt src ret b).abortPending = s.abortPending := by
  delta State.interrupt; dsimp only; rw [State.setRun_abortPending, State.enterVector_abortPending]
  split <;> simp only [State.setDbr_abortPending, State.setPbr_abortPending, State.setP_abortPending, State.pushFrame_abortPending]
@[simp] theorem State.interrupt_cfg (src : IntSource) (ret : Half) (b : Bool) (s : State) : (s.interrupt src ret b).cfg = s.cfg := by
  delta State.interrupt; dsimp only; rw [State.setRun_cfg, State.enterVector_cfg]
  split <;> simp only [State.setDbr_cfg, State.setPbr_cfg, State.setP_cfg, State.pushFrame_cfg]
@[simp] theorem State.interrupt_inputs (src : IntSource) (ret : Half) (b : Bool) (s : State) : (s.interrupt src ret b).inputs = s.inputs := by
  delta State.interrupt; dsimp only; rw [State.setRun_inputs, State.enterVector_inputs]
  split <;> simp only [State.setDbr_inputs, State.setPbr_inputs, State.setP_inputs, State.pushFrame_inputs]
@[simp] theorem State.interrupt_freeIdx (src : IntSource) (ret : Half) (b : Bool) (s : State) : (s.interrupt src ret b).freeIdx = s.freeIdx := by
  delta State.interrupt; dsimp only; rw [State.setRun_freeIdx, State.enterVector_freeIdx]
  split <;> simp only [State.setDbr_freeIdx, State.setPbr_freeIdx, State.setP_freeIdx, State.pushFrame_freeIdx]
@[simp] theorem State.interrupt_emu8 (src : IntSource) (ret : Half) (b : Bool) (s : State) : (s.interrupt src ret b).emu8 = s.emu8 :=
  congrArg₂ (fun a b : Bool => a && b) (State.interrupt_e16 src ret b s) (State.interrupt_e8 src ret b s)
@[simp] theorem State.interrupt_native (src : IntSource) (ret : Half) (b : Bool) (s : State) : (s.interrupt src ret b).native = s.native :=
  congrArg (fun b : Bool => !b) (State.interrupt_e16 src ret b s)

@[simp] theorem State.returnFromInterrupt_a (s : State) : (s.returnFromInterrupt).a = s.a := by
  delta State.returnFromInterrupt; dsimp only; rw [State.normalise_a]
  split <;> simp only [State.setPbr_a, State.pull8_a, State.setPc_a, State.pullN_a, State.writeP_a]
@[simp] theorem State.returnFromInterrupt_dr (s : State) : (s.returnFromInterrupt).dr = s.dr := by
  delta State.returnFromInterrupt; dsimp only; rw [State.normalise_dr]
  split <;> simp only [State.setPbr_dr, State.pull8_dr, State.setPc_dr, State.pullN_dr, State.writeP_dr]
@[simp] theorem State.returnFromInterrupt_dbr (s : State) : (s.returnFromInterrupt).dbr = s.dbr := by
  delta State.returnFromInterrupt; dsimp only; rw [State.normalise_dbr]
  split <;> simp only [State.setPbr_dbr, State.pull8_dbr, State.setPc_dbr, State.pullN_dbr, State.writeP_dbr]
@[simp] theorem State.returnFromInterrupt_e8 (s : State) : (s.returnFromInterrupt).e8 = s.e8 := by
  delta State.returnFromInterrupt; dsimp only; rw [State.normalise_e8]
  split <;> simp only [State.setPbr_e8, State.pull8_e8, State.setPc_e8, State.pullN_e8, State.writeP_e8]
@[simp] theorem State.returnFromInterrupt_e16 (s : State) : (s.returnFromInterrupt).e16 = s.e16 := by
  delta State.returnFromInterrupt; dsimp only; rw [State.normalise_e16]
  split <;> simp only [State.setPbr_e16, State.pull8_e16, State.setPc_e16, State.pullN_e16, State.writeP_e16]
@[simp] theorem State.returnFromInterrupt_run (s : State) : (s.returnFromInterrupt).run = s.run := by
  delta State.returnFromInterrupt; dsimp only; rw [State.normalise_run]
  split <;> simp only [State.setPbr_run, State.pull8_run, State.setPc_run, State.pullN_run, State.writeP_run]
@[simp] theorem State.returnFromInterrupt_nmiPending (s : State) : (s.returnFromInterrupt).nmiPending = s.nmiPending := by
  delta State.returnFromInterrupt; dsimp only; rw [State.normalise_nmiPending]
  split <;> simp only [State.setPbr_nmiPending, State.pull8_nmiPending, State.setPc_nmiPending, State.pullN_nmiPending, State.writeP_nmiPending]
@[simp] theorem State.returnFromInterrupt_abortPending (s : State) : (s.returnFromInterrupt).abortPending = s.abortPending := by
  delta State.returnFromInterrupt; dsimp only; rw [State.normalise_abortPending]
  split <;> simp only [State.setPbr_abortPending, State.pull8_abortPending, State.setPc_abortPending, State.pullN_abortPending, State.writeP_abortPending]
@[simp] theorem State.returnFromInterrupt_mem (s : State) : (s.returnFromInterrupt).mem = s.mem := by
  delta State.returnFromInterrupt; dsimp only; rw [State.normalise_mem]
  split <;> simp only [State.setPbr_mem, State.pull8_mem, State.setPc_mem, State.pullN_mem, State.writeP_mem]
@[simp] theorem State.returnFromInterrupt_cfg (s : State) : (s.returnFromInterrupt).cfg = s.cfg := by
  delta State.returnFromInterrupt; dsimp only; rw [State.normalise_cfg]
  split <;> simp only [State.setPbr_cfg, State.pull8_cfg, State.setPc_cfg, State.pullN_cfg, State.writeP_cfg]
@[simp] theorem State.returnFromInterrupt_inputs (s : State) : (s.returnFromInterrupt).inputs = s.inputs := by
  delta State.returnFromInterrupt; dsimp only; rw [State.normalise_inputs]
  split <;> simp only [State.setPbr_inputs, State.pull8_inputs, State.setPc_inputs, State.pullN_inputs, State.writeP_inputs]
@[simp] theorem State.returnFromInterrupt_emu8 (s : State) : (s.returnFromInterrupt).emu8 = s.emu8 :=
  congrArg₂ (fun a b : Bool => a && b) (State.returnFromInterrupt_e16 s) (State.returnFromInterrupt_e8 s)
@[simp] theorem State.returnFromInterrupt_native (s : State) : (s.returnFromInterrupt).native = s.native :=
  congrArg (fun b : Bool => !b) (State.returnFromInterrupt_e16 s)

@[simp] theorem State.resetSequence_mem (s : State) : (s.resetSequence).mem = s.mem := rfl
@[simp] theorem State.resetSequence_cfg (s : State) : (s.resetSequence).cfg = s.cfg := rfl
@[simp] theorem State.resetSequence_inputs (s : State) : (s.resetSequence).inputs = s.inputs := rfl

@[simp] theorem State.setNZ_a (w : Width) (v : Word) (s : State) : (s.setNZ w v).a = s.a := rfl
@[simp] theorem State.setNZ_x (w : Width) (v : Word) (s : State) : (s.setNZ w v).x = s.x := rfl
@[simp] theorem State.setNZ_y (w : Width) (v : Word) (s : State) : (s.setNZ w v).y = s.y := rfl
@[simp] theorem State.setNZ_sp (w : Width) (v : Word) (s : State) : (s.setNZ w v).sp = s.sp := rfl
@[simp] theorem State.setNZ_dr (w : Width) (v : Word) (s : State) : (s.setNZ w v).dr = s.dr := rfl
@[simp] theorem State.setNZ_pc (w : Width) (v : Word) (s : State) : (s.setNZ w v).pc = s.pc := rfl
@[simp] theorem State.setNZ_pbr (w : Width) (v : Word) (s : State) : (s.setNZ w v).pbr = s.pbr := rfl
@[simp] theorem State.setNZ_dbr (w : Width) (v : Word) (s : State) : (s.setNZ w v).dbr = s.dbr := rfl
@[simp] theorem State.setNZ_e8 (w : Width) (v : Word) (s : State) : (s.setNZ w v).e8 = s.e8 := rfl
@[simp] theorem State.setNZ_e16 (w : Width) (v : Word) (s : State) : (s.setNZ w v).e16 = s.e16 := rfl
@[simp] theorem State.setNZ_run (w : Width) (v : Word) (s : State) : (s.setNZ w v).run = s.run := rfl
@[simp] theorem State.setNZ_nmiPending (w : Width) (v : Word) (s : State) : (s.setNZ w v).nmiPending = s.nmiPending := rfl
@[simp] theorem State.setNZ_abortPending (w : Width) (v : Word) (s : State) : (s.setNZ w v).abortPending = s.abortPending := rfl
@[simp] theorem State.setNZ_mem (w : Width) (v : Word) (s : State) : (s.setNZ w v).mem = s.mem := rfl
@[simp] theorem State.setNZ_cfg (w : Width) (v : Word) (s : State) : (s.setNZ w v).cfg = s.cfg := rfl
@[simp] theorem State.setNZ_inputs (w : Width) (v : Word) (s : State) : (s.setNZ w v).inputs = s.inputs := rfl
@[simp] theorem State.setNZ_bus (w : Width) (v : Word) (s : State) : (s.setNZ w v).bus = s.bus := rfl
@[simp] theorem State.setNZ_freeIdx (w : Width) (v : Word) (s : State) : (s.setNZ w v).freeIdx = s.freeIdx := rfl
@[simp] theorem State.setNZ_emu8 (w : Width) (v : Word) (s : State) : (s.setNZ w v).emu8 = s.emu8 :=
  congrArg₂ (fun a b : Bool => a && b) (State.setNZ_e16 w v s) (State.setNZ_e8 w v s)
@[simp] theorem State.setNZ_native (w : Width) (v : Word) (s : State) : (s.setNZ w v).native = s.native :=
  congrArg (fun b : Bool => !b) (State.setNZ_e16 w v s)

@[simp] theorem State.putAlu_x (w : Width) (q : AluResult) (s : State) : (s.putAlu w q).x = s.x := rfl
@[simp] theorem State.putAlu_y (w : Width) (q : AluResult) (s : State) : (s.putAlu w q).y = s.y := rfl
@[simp] theorem State.putAlu_sp (w : Width) (q : AluResult) (s : State) : (s.putAlu w q).sp = s.sp := rfl
@[simp] theorem State.putAlu_dr (w : Width) (q : AluResult) (s : State) : (s.putAlu w q).dr = s.dr := rfl
@[simp] theorem State.putAlu_pc (w : Width) (q : AluResult) (s : State) : (s.putAlu w q).pc = s.pc := rfl
@[simp] theorem State.putAlu_pbr (w : Width) (q : AluResult) (s : State) : (s.putAlu w q).pbr = s.pbr := rfl
@[simp] theorem State.putAlu_dbr (w : Width) (q : AluResult) (s : State) : (s.putAlu w q).dbr = s.dbr := rfl
@[simp] theorem State.putAlu_e8 (w : Width) (q : AluResult) (s : State) : (s.putAlu w q).e8 = s.e8 := rfl
@[simp] theorem State.putAlu_e16 (w : Width) (q : AluResult) (s : State) : (s.putAlu w q).e16 = s.e16 := rfl
@[simp] theorem State.putAlu_run (w : Width) (q : AluResult) (s : State) : (s.putAlu w q).run = s.run := rfl
@[simp] theorem State.putAlu_nmiPending (w : Width) (q : AluResult) (s : State) : (s.putAlu w q).nmiPending = s.nmiPending := rfl
@[simp] theorem State.putAlu_abortPending (w : Width) (q : AluResult) (s : State) : (s.putAlu w q).abortPending = s.abortPending := rfl
@[simp] theorem State.putAlu_mem (w : Width) (q : AluResult) (s : State) : (s.putAlu w q).mem = s.mem := rfl
@[simp] theorem State.putAlu_cfg (w : Width) (q : AluResult) (s : State) : (s.putAlu w q).cfg = s.cfg := rfl
@[simp] theorem State.putAlu_inputs (w : Width) (q : AluResult) (s : State) : (s.putAlu w q).inputs = s.inputs := rfl
@[simp] theorem State.putAlu_bus (w : Width) (q : AluResult) (s : State) : (s.putAlu w q).bus = s.bus := rfl
@[simp] theorem State.putAlu_emu8 (w : Width) (q : AluResult) (s : State) : (s.putAlu w q).emu8 = s.emu8 :=
  congrArg₂ (fun a b : Bool => a && b) (State.putAlu_e16 w q s) (State.putAlu_e8 w q s)
@[simp] theorem State.putAlu_native (w : Width) (q : AluResult) (s : State) : (s.putAlu w q).native = s.native :=
  congrArg (fun b : Bool => !b) (State.putAlu_e16 w q s)

@[simp] theorem Mode.notePointer_a (m : Mode) (s : State) : (m.notePointer s).a = s.a := by delta Mode.notePointer; split <;> rfl
@[simp] theorem Mode.notePointer_x (m : Mode) (s : State) : (m.notePointer s).x = s.x := by delta Mode.notePointer; split <;> rfl
@[simp] theorem Mode.notePointer_y (m : Mode) (s : State) : (m.notePointer s).y = s.y := by delta Mode.notePointer; split <;> rfl
@[simp] theorem Mode.notePointer_sp (m : Mode) (s : State) : (m.notePointer s).sp = s.sp := by delta Mode.notePointer; split <;> rfl
@[simp] theorem Mode.notePointer_dr (m : Mode) (s : State) : (m.notePointer s).dr = s.dr := by delta Mode.notePointer; split <;> rfl
@[simp] theorem Mode.notePointer_pc (m : Mode) (s : State) : (m.notePointer s).pc = s.pc := by delta Mode.notePointer; split <;> rfl
@[simp] theorem Mode.notePointer_pbr (m : Mode) (s : State) : (m.notePointer s).pbr = s.pbr := by delta Mode.notePointer; split <;> rfl
@[simp] theorem Mode.notePointer_dbr (m : Mode) (s : State) : (m.notePointer s).dbr = s.dbr := by delta Mode.notePointer; split <;> rfl
@[simp] theorem Mode.notePointer_p (m : Mode) (s : State) : (m.notePointer s).p = s.p := by delta Mode.notePointer; split <;> rfl
@[simp] theorem Mode.notePointer_e8 (m : Mode) (s : State) : (m.notePointer s).e8 = s.e8 := by delta Mode.notePointer; split <;> rfl
@[simp] theorem Mode.notePointer_e16 (m : Mode) (s : State) : (m.notePointer s).e16 = s.e16 := by delta Mode.notePointer; split <;> rfl
@[simp] theorem Mode.notePointer_run (m : Mode) (s : State) : (m.notePointer s).run = s.run := by delta Mode.notePointer; split <;> rfl
@[simp] theorem Mode.notePointer_nmiPending (m : Mode) (s : State) : (m.notePointer s).nmiPending = s.nmiPending := by delta Mode.notePointer; split <;> rfl
@[simp] theorem Mode.notePointer_abortPending (m : Mode) (s : State) : (m.notePointer s).abortPending = s.abortPending := by delta Mode.notePointer; split <;> rfl
@[simp] theorem Mode.notePointer_mem (m : Mode) (s : State) : (m.notePointer s).mem = s.mem := by delta Mode.notePointer; split <;> rfl
@[simp] theorem Mode.notePointer_cfg (m : Mode) (s : State) : (m.notePointer s).cfg = s.cfg := by delta Mode.notePointer; split <;> rfl
@[simp] theorem Mode.notePointer_inputs (m : Mode) (s : State) : (m.notePointer s).inputs = s.inputs := by delta Mode.notePointer; split <;> rfl
@[simp] theorem Mode.notePointer_freeIdx (m : Mode) (s : State) : (m.notePointer s).freeIdx = s.freeIdx := by delta Mode.notePointer; split <;> rfl
@[simp] theorem Mode.notePointer_emu8 (m : Mode) (s : State) : (m.notePointer s).emu8 = s.emu8 :=
  congrArg₂ (fun a b : Bool => a && b) (Mode.notePointer_e16 m s) (Mode.notePointer_e8 m s)
@[simp] theorem Mode.notePointer_native (m : Mode) (s : State) : (m.notePointer s).native = s.native :=
  congrArg (fun b : Bool => !b) (Mode.notePointer_e16 m s)

@[simp] theorem Mode.noteData_a (m : Mode) (n : Nat) (s : State) : (m.noteData n s).a = s.a := Mode.notePointer_a m s
@[simp] theorem Mode.noteData_x (m : Mode) (n : Nat) (s : State) : (m.noteData n s).x = s.x := Mode.notePointer_x m s
@[simp] theorem Mode.noteData_y (m : Mode) (n : Nat) (s : State) : (m.noteData n s).y = s.y := Mode.notePointer_y m s
@[simp] theorem Mode.noteData_sp (m : Mode) (n : Nat) (s : State) : (m.noteData n s).sp = s.sp := Mode.notePointer_sp m s
@[simp] theorem Mode.noteData_dr (m : Mode) (n : Nat) (s : State) : (m.noteData n s).dr = s.dr := Mode.notePointer_dr m s
@[simp] theorem Mode.noteData_pc (m : Mode) (n : Nat) (s : State) : (m.noteData n s).pc = s.pc := Mode.notePointer_pc m s
@[simp] theorem Mode.noteData_pbr (m : Mode) (n : Nat) (s : State) : (m.noteData n s).pbr = s.pbr := Mode.notePointer_pbr m s
@[simp] theorem Mode.noteData_dbr (m : Mode) (n : Nat) (s : State) : (m.noteData n s).dbr = s.dbr := Mode.notePointer_dbr m s
@[simp] theorem Mode.noteData_p (m : Mode) (n : Nat) (s : State) : (m.noteData n s).p = s.p := Mode.notePointer_p m s
@[simp] theorem Mode.noteData_e8 (m : Mode) (n : Nat) (s : State) : (m.noteData n s).e8 = s.e8 := Mode.notePointer_e8 m s
@[simp] theorem Mode.noteData_e16 (m : Mode) (n : Nat) (s : State) : (m.noteData n s).e16 = s.e16 := Mode.notePointer_e16 m s
@[simp] theorem Mode.noteData_run (m : Mode) (n : Nat) (s : State) : (m.noteData n s).run = s.run := Mode.notePointer_run m s
@[simp] theorem Mode.noteData_nmiPending (m : Mode) (n : Nat) (s : State) : (m.noteData n s).nmiPending = s.nmiPending := Mode.notePointer_nmiPending m s
@[simp] theorem Mode.noteData_abortPending (m : Mode) (n : Nat) (s : State) : (m.noteData n s).abortPending = s.abortPending := Mode.notePointer_abortPending m s
@[simp] theorem Mode.noteData_mem (m : Mode) (n : Nat) (s : State) : (m.noteData n s).mem = s.mem := Mode.notePointer_mem m s
@[simp] theorem Mode.noteData_cfg (m : Mode) (n : Nat) (s : State) : (m.noteData n s).cfg = s.cfg := Mode.notePointer_cfg m s
@[simp] theorem Mode.noteData_inputs (m : Mode) (n : Nat) (s : State) : (m.noteData n s).inputs = s.inputs := Mode.notePointer_inputs m s
@[simp] theorem Mode.noteData_freeIdx (m : Mode) (n : Nat) (s : State) : (m.noteData n s).freeIdx = s.freeIdx := Mode.notePointer_freeIdx m s
@[simp] theorem Mode.noteData_emu8 (m : Mode) (n : Nat) (s : State) : (m.noteData n s).emu8 = s.emu8 :=
  congrArg₂ (fun a b : Bool => a && b) (Mode.noteData_e16 m n s) (Mode.noteData_e8 m n s)
@[simp] theorem Mode.noteData_native (m : Mode) (n : Nat) (s : State) : (m.noteData n s).native = s.native :=
  congrArg (fun b : Bool => !b) (Mode.noteData_e16 m n s)

@[simp] theorem Operand.note_a (w : Width) (o : Operand) (s : State) : (o.note w s).a = s.a := by
  cases o with
  | imm v => rfl
  | mem m => exact Mode.noteData_a m _ s
@[simp] theorem Operand.note_x (w : Width) (o : Operand) (s : State) : (o.note w s).x = s.x := by
  cases o with
  | imm v => rfl
  | mem m => exact Mode.noteData_x m _ s
@[simp] theorem Operand.note_y (w : Width) (o : Operand) (s : State) : (o.note w s).y = s.y := by
  cases o with
  | imm v => rfl
  | mem m => exact Mode.noteData_y m _ s
@[simp] theorem Operand.note_sp (w : Width) (o : Operand) (s : State) : (o.note w s).sp = s.sp := by
  cases o with
  | imm v => rfl
  | mem m => exact Mode.noteData_sp m _ s
@[simp] theorem Operand.note_dr (w : Width) (o : Operand) (s : State) : (o.note w s).dr = s.dr := by
  cases o with
  | imm v => rfl
  | mem m => exact Mode.noteData_dr m _ s
@[simp] theorem Operand.note_pc (w : Width) (o : Operand) (s : State) : (o.note w s).pc = s.pc := by
  cases o with
  | imm v => rfl
  | mem m => exact Mode.noteData_pc m _ s
@[simp] theorem Operand.note_pbr (w : Width) (o : Operand) (s : State) : (o.note w s).pbr = s.pbr := by
  cases o with
  | imm v => rfl
  | mem m => exact Mode.noteData_pbr m _ s
@[simp] theorem Operand.note_dbr (w : Width) (o : Operand) (s : State) : (o.note w s).dbr = s.dbr := by
  cases o with
  | imm v => rfl
  | mem m => exact Mode.noteData_dbr m _ s
@[simp] theorem Operand.note_p (w : Width) (o : Operand) (s : State) : (o.note w s).p = s.p := by
  cases o with
  | imm v => rfl
  | mem m => exact Mode.noteData_p m _ s
@[simp] theorem Operand.note_e8 (w : Width) (o : Operand) (s : State) : (o.note w s).e8 = s.e8 := by
  cases o with
  | imm v => rfl
  | mem m => exact Mode.noteData_e8 m _ s
@[simp] theorem Operand.note_e16 (w : Width) (o : Operand) (s : State) : (o.note w s).e16 = s.e16 := by
  cases o with
  | imm v => rfl
  | mem m => exact Mode.noteData_e16 m _ s
@[simp] theorem Operand.note_run (w : Width) (o : Operand) (s : State) : (o.note w s).run = s.run := by
  cases o with
  | imm v => rfl
  | mem m => exact Mode.noteData_run m _ s
@[simp] theorem Operand.note_nmiPending (w : Width) (o : Operand) (s : State) : (o.note w s).nmiPending = s.nmiPending := by
  cases o with
  | imm v => rfl
  | mem m => exact Mode.noteData_nmiPending m _ s
@[simp] theorem Operand.note_abortPending (w : Width) (o : Operand) (s : State) : (o.note w s).abortPending = s.abortPending := by
  cases o with
  | imm v => rfl
  | mem m => exact Mode.noteData_abortPending m _ s
@[simp] theorem Operand.note_mem (w : Width) (o : Operand) (s : State) : (o.note w s).mem = s.mem := by
  cases o with
  | imm v => rfl
  | mem m => exact Mode.noteData_mem m _ s
@[simp] theorem Operand.note_cfg (w : Width) (o : Operand) (s : State) : (o.note w s).cfg = s.cfg := by
  cases o with
  | imm v => rfl
  | mem m => exact Mode.noteData_cfg m _ s
@[simp] theorem Operand.note_inputs (w : Width) (o : Operand) (s : State) : (o.note w s).inputs = s.inputs := by
  cases o with
  | imm v => rfl
  | mem m => exact Mode.noteData_inputs m _ s
@[simp] theorem Operand.note_freeIdx (w : Width) (o : Operand) (s : State) : (o.note w s).freeIdx = s.freeIdx := by
  cases o with
  | imm v => rfl
  | mem m => exact Mode.noteData_freeIdx m _ s
@[simp] theorem Operand.note_emu8 (w : Width) (o : Operand) (s : State) : (o.note w s).emu8 = s.emu8 :=
  congrArg₂ (fun a b : Bool => a && b) (Operand.note_e16 w o s) (Operand.note_e8 w o s)
@[simp] theorem Operand.note_native (w : Width) (o : Operand) (s : State) : (o.note w s).native = s.native :=
  congrArg (fun b : Bool => !b) (Operand.note_e16 w o s)

end Sys2Proof.Machine
end

