-- ==== Sys2Proof/Laws/Memory.lean ====
section
/-! SUPPORT. Memory: a read after a write, and the canonical form, which every memory operation keeps. -/

namespace Sys2Proof.Machine

theorem Mem.read_nil (a : Nat) : Mem.read [] a = Mem.unlisted := rfl

theorem Mem.read_cons (k : Nat) (b : Byte) (m : List Host.Cell) (a : Nat) :
    Mem.read ((k, b) :: m) a = if a = k then b else Mem.read m a := rfl

/-- An unlisted address reads as unlisted. -/
theorem Mem.read_erase (m : List Host.Cell) (a c : Nat) :
    Mem.read (Mem.erase a m) c = if c = a then Mem.unlisted else Mem.read m c := by
  induction m with
  | nil => simp [Mem.erase, Mem.read]
  | cons p m ih =>
    obtain ⟨k, b⟩ := p
    by_cases h : a = k
    · subst h
      rw [Mem.erase, if_pos rfl, ih, Mem.read_cons]
      split <;> simp_all
    · rw [Mem.erase, if_neg h, Mem.read_cons, Mem.read_cons, ih]
      split <;> split <;> simp_all

/-- An inserted cell is read, where the address was not listed; every other address reads as before. -/
theorem Mem.read_insert (m : List Host.Cell) (a : Nat) (v : Byte) (c : Nat) (h : ∀ p ∈ m, p.1 ≠ a) :
    Mem.read (Mem.insert a v m) c = if c = a then v else Mem.read m c := by
  induction m with
  | nil => simp [Mem.insert, Mem.read]
  | cons p m ih =>
    obtain ⟨k, b⟩ := p
    have hk : k ≠ a := h (k, b) (by simp)
    have ih' := ih fun q hq => h q (by simp [hq])
    rw [Mem.insert]
    split
    · rw [Mem.read_cons]
    · rw [Mem.read_cons, Mem.read_cons, ih']
      split <;> split <;> simp_all

theorem Mem.mem_erase {m : List Host.Cell} {a : Nat} {p : Host.Cell} :
    p ∈ Mem.erase a m ↔ p ∈ m ∧ p.1 ≠ a := by
  induction m with
  | nil => simp [Mem.erase]
  | cons q m ih =>
    obtain ⟨k, b⟩ := q
    rw [Mem.erase]
    split <;> rename_i h
    · rw [ih]
      constructor
      · rintro ⟨h1, h2⟩
        exact ⟨by simp [h1], h2⟩
      · rintro ⟨h1, h2⟩
        rcases List.mem_cons.1 h1 with rfl | h1
        · exact absurd h.symm h2
        · exact ⟨h1, h2⟩
    · simp only [List.mem_cons, ih]
      constructor
      · rintro (rfl | ⟨h1, h2⟩)
        · exact ⟨.inl rfl, fun e => h e.symm⟩
        · exact ⟨.inr h1, h2⟩
      · rintro ⟨rfl | h1, h2⟩
        · exact .inl rfl
        · exact .inr ⟨h1, h2⟩

theorem Mem.mem_insert {m : List Host.Cell} {a : Nat} {v : Byte} {p : Host.Cell} :
    p ∈ Mem.insert a v m ↔ p = (a, v) ∨ p ∈ m := by
  induction m with
  | nil => simp [Mem.insert]
  | cons q m ih =>
    obtain ⟨k, b⟩ := q
    rw [Mem.insert]
    split
    · simp
    · simp only [List.mem_cons, ih]
      tauto

/-- What a write does to every address (R85): this says all a write can do. -/
theorem Mem.read_write (m : List Host.Cell) (a : Nat) (v : Byte) (c : Nat) :
    Mem.read (Mem.write m a v) c = if c = a then v else Mem.read m c := by
  unfold Mem.write
  split <;> rename_i h
  · rw [Mem.read_erase, h]
  · rw [Mem.read_insert _ _ _ _ fun p hp => (Mem.mem_erase.1 hp).2, Mem.read_erase]
    split <;> simp_all

@[simp] theorem Mem.read_write_same (m : List Host.Cell) (a : Nat) (v : Byte) :
    Mem.read (Mem.write m a v) a = v := by rw [Mem.read_write, if_pos rfl]

theorem Mem.read_write_other (m : List Host.Cell) (a : Nat) (v : Byte) {c : Nat} (h : c ≠ a) :
    Mem.read (Mem.write m a v) c = Mem.read m c := by rw [Mem.read_write, if_neg h]

theorem Mem.wf_nil : Mem.wf [] := ⟨List.Pairwise.nil, by simp⟩

theorem Mem.wf_erase {m : List Host.Cell} (a : Nat) (h : Mem.wf m) : Mem.wf (Mem.erase a m) := by
  obtain ⟨h1, h2⟩ := h
  refine ⟨?_, fun p hp => h2 p (Mem.mem_erase.1 hp).1⟩
  clear h2
  induction m with
  | nil => exact .nil
  | cons q m ih =>
    obtain ⟨k, b⟩ := q
    rw [List.pairwise_cons] at h1
    rw [Mem.erase]
    split
    · exact ih h1.2
    · exact List.pairwise_cons.2 ⟨fun p hp => h1.1 p (Mem.mem_erase.1 hp).1, ih h1.2⟩

theorem Mem.wf_insert {m : List Host.Cell} {a : Nat} {v : Byte} (h : Mem.wf m) (hv : v ≠ Mem.unlisted)
    (ha : ∀ p ∈ m, p.1 ≠ a) : Mem.wf (Mem.insert a v m) := by
  obtain ⟨h1, h2⟩ := h
  refine ⟨?_, fun p hp => ?_⟩
  · clear h2
    induction m with
    | nil => simp [Mem.insert]
    | cons q m ih =>
      obtain ⟨k, b⟩ := q
      rw [List.pairwise_cons] at h1
      have hk : k ≠ a := ha (k, b) (by simp)
      rw [Mem.insert]
      split <;> rename_i hlt
      · refine List.pairwise_cons.2 ⟨fun p hp => ?_, List.pairwise_cons.2 h1⟩
        rcases List.mem_cons.1 hp with rfl | hp
        · exact hlt
        · exact lt_trans hlt (h1.1 p hp)
      · refine List.pairwise_cons.2 ⟨fun p hp => ?_, ih (fun p hp => ha p (by simp [hp])) h1.2⟩
        rcases Mem.mem_insert.1 hp with rfl | hp
        · exact lt_of_le_of_ne (not_lt.1 hlt) hk
        · exact h1.1 p hp
  · rcases Mem.mem_insert.1 hp with rfl | hp
    · exact hv
    · exact h2 p hp

/-- A write keeps the canonical form. -/
theorem Mem.wf_write {m : List Host.Cell} (a : Nat) (v : Byte) (h : Mem.wf m) : Mem.wf (Mem.write m a v) := by
  unfold Mem.write
  split
  · exact Mem.wf_erase a h
  · exact Mem.wf_insert (Mem.wf_erase a h) ‹_› fun p hp => (Mem.mem_erase.1 hp).2

/-- A write to a physical address keeps every listed address physical. -/
theorem Mem.inSpace_write {bits : Nat} {m : List Host.Cell} {a : Nat} (v : Byte) (ha : a < 2 ^ bits)
    (h : Mem.inSpace bits m) : Mem.inSpace bits (Mem.write m a v) := by
  intro p hp
  unfold Mem.write at hp
  split at hp
  · exact h p (Mem.mem_erase.1 hp).1
  · rcases Mem.mem_insert.1 hp with rfl | hp
    · exact ha
    · exact h p (Mem.mem_erase.1 hp).1

/-- Two memories in canonical form that read the same everywhere are equal data. -/
theorem Mem.ext_of_read {m n : List Host.Cell} (hm : Mem.wf m) (hn : Mem.wf n)
    (h : ∀ a, Mem.read m a = Mem.read n a) : m = n := by
  have low : ∀ {l : List Host.Cell} {a : Nat}, (∀ p ∈ l, a < p.1) → Mem.read l a = Mem.unlisted := by
    intro l a hl
    induction l with
    | nil => rfl
    | cons q l ih =>
      obtain ⟨k, b⟩ := q
      have := hl (k, b) (by simp)
      rw [Mem.read_cons, if_neg (by simp at this; omega), ih fun p hp => hl p (by simp [hp])]
  induction m generalizing n with
  | nil =>
    cases n with
    | nil => rfl
    | cons q n =>
      obtain ⟨k, b⟩ := q
      have := h k
      rw [Mem.read_nil, Mem.read_cons, if_pos rfl] at this
      exact absurd this.symm (hn.2 (k, b) (by simp))
  | cons p m ih =>
    obtain ⟨k, b⟩ := p
    have hm1 := List.pairwise_cons.1 hm.1
    cases n with
    | nil =>
      have := h k
      rw [Mem.read_nil, Mem.read_cons, if_pos rfl] at this
      exact absurd this (hm.2 (k, b) (by simp))
    | cons q n =>
      obtain ⟨k', b'⟩ := q
      have hn1 := List.pairwise_cons.1 hn.1
      have hkk : k = k' := by
        by_contra hne
        rcases Nat.lt_or_gt_of_ne hne with hlt | hlt
        · have := h k
          rw [Mem.read_cons, if_pos rfl, Mem.read_cons, if_neg hne,
            low fun p hp => lt_trans hlt (hn1.1 p hp)] at this
          exact hm.2 (k, b) (by simp) this
        · have := h k'
          rw [Mem.read_cons, if_neg (Ne.symm hne), Mem.read_cons, if_pos rfl,
            low fun p hp => lt_trans hlt (hm1.1 p hp)] at this
          exact hn.2 (k', b') (by simp) this.symm
      subst hkk
      have hb : b = b' := by
        have := h k
        rwa [Mem.read_cons, if_pos rfl, Mem.read_cons, if_pos rfl] at this
      subst hb
      have := ih (n := n) ⟨hm1.2, fun p hp => hm.2 p (by simp [hp])⟩ ⟨hn1.2, fun p hp => hn.2 p (by simp [hp])⟩
        fun a => by
          have ha := h a
          rw [Mem.read_cons, Mem.read_cons] at ha
          split at ha <;> rename_i he
          · subst he
            rw [low hm1.1, low hn1.1]
          · exact ha
      rw [this]

end Sys2Proof.Machine
end

