-- ==== Sys2Proof/Laws/Ops.lean ====
section
/-! SUPPORT. What the shared operations do, said once for each: addresses of bytes, reads and writes of memory, pushes
and pulls, the normalisation of a mode write, the flag computations, and the canonical form of memory. -/

namespace Sys2Proof.Machine

/-! ## Addresses -/

theorem State.addr_lt (s : State) (a : Word) : s.phys a < 2 ^ s.cfg.addrBits.bits := Nat.mod_lt _ (Nat.two_pow_pos _)

theorem State.phys_congr {s t : State} (h : t.cfg = s.cfg) (a : Word) : t.phys a = s.phys a := by
  rw [State.phys, State.phys, h]

theorem State.native_congr {s t : State} (h : t.e16 = s.e16) : t.native = s.native := congrArg (! ·) h

theorem State.emu8_congr {s t : State} (h16 : t.e16 = s.e16) (h8 : t.e8 = s.e8) : t.emu8 = s.emu8 :=
  congrArg₂ (· && ·) h16 h8

theorem State.byteAddr_congr {s t : State} (h16 : t.e16 = s.e16) (hp : t.pbr = s.pbr) (ea : EA) (i : Nat) :
    t.byteAddr ea i = s.byteAddr ea i := by
  rw [State.byteAddr, State.byteAddr, State.native_congr h16, hp]

theorem State.physByte_congr {s t : State} (hc : t.cfg = s.cfg) (h16 : t.e16 = s.e16) (hp : t.pbr = s.pbr) (ea : EA)
    (i : Nat) : t.physByte ea i = s.physByte ea i := by
  rw [State.physByte, State.physByte, State.byteAddr_congr h16 hp, State.phys_congr hc]

theorem State.read8_eq (s : State) (a : Word) : s.read8 a = Mem.read s.mem (s.phys a) := rfl

theorem State.read8_byteAddr (s : State) (ea : EA) (i : Nat) :
    s.read8 (s.byteAddr ea i) = Mem.read s.mem (s.physByte ea i) := rfl

/-- An address below 64 K reaches memory as it is. -/
theorem State.phys_of_lt (s : State) {a : Word} (h : a.toNat < 2 ^ 24) : s.phys a = a.toNat := by
  rw [State.phys]
  cases s.cfg.addrBits
  · exact Nat.mod_eq_of_lt h
  · exact Nat.mod_eq_of_lt a.isLt

theorem State.phys_zextHalf (s : State) (h : Half) : s.phys (zextHalf h) = h.toNat := by
  have := h.isLt
  rw [State.phys_of_lt s (by rw [zextHalf_toNat]; omega), zextHalf_toNat]

theorem State.stackPhys_eq (s : State) (h : Half) : s.stackPhys h = h.toNat := s.phys_zextHalf h

theorem State.phys_bankAddr (s : State) (b : Byte) (h : Half) : s.phys (bankAddr b h) = b.toNat * 65536 + h.toNat := by
  have h1 := b.isLt
  have h2 := h.isLt
  rw [State.phys_of_lt s (by rw [bankAddr_toNat]; omega), bankAddr_toNat]

/-- The bytes of one access have different addresses. -/
theorem State.physByte_inj (s : State) (ea : EA) {i j : Nat} (hi : i < 4) (hj : j < 4)
    (h : s.physByte ea i = s.physByte ea j) : i = j := by
  obtain ⟨a, k⟩ := ea
  have ha := a.isLt
  have hp := s.pbr.isLt
  rw [State.physByte, State.physByte, State.phys, State.phys] at h
  have e : ∀ x : Word, x.toNat % 2 ^ s.cfg.addrBits.bits % 2 ^ 24 = x.toNat % 2 ^ 24 := by
    intro x
    cases s.cfg.addrBits
    · exact Nat.mod_mod ..
    · simp only [AddrBits.bits]; omega
  have h' := congrArg (· % 2 ^ 24) h
  simp only [e] at h'
  cases k
  · simp only [State.byteAddr] at h'
    split at h'
    · rw [BitVec.toNat_add, BitVec.toNat_add, BitVec.toNat_ofNat, BitVec.toNat_ofNat] at h'
      omega
    · rw [low24_toNat, low24_toNat, BitVec.toNat_add, BitVec.toNat_add, BitVec.toNat_ofNat, BitVec.toNat_ofNat] at h'
      omega
  · simp only [State.byteAddr, bankAddr_toNat, BitVec.toNat_add, BitVec.toNat_ofNat, lowHalf_toNat] at h'
    omega
  · simp only [State.byteAddr, bankAddr_toNat, joinBytes_toNat, BitVec.toNat_add, BitVec.toNat_ofNat, lowByte_toNat,
      halfHi_toNat, lowHalf_toNat] at h'
    omega
  · simp only [State.byteAddr, bankAddr_toNat, BitVec.toNat_add, BitVec.toNat_ofNat, lowHalf_toNat] at h'
    omega

/-! ## Reads -/

theorem littleEndian_lt (f : Nat → Byte) (n : Nat) : littleEndian f n < 256 ^ n := by
  induction n with
  | zero => exact Nat.one_pos
  | succ n ih =>
    have := (f n).isLt
    have h2 : (f n).toNat * 256 ^ n ≤ 255 * 256 ^ n := Nat.mul_le_mul_right _ (by omega)
    rw [littleEndian, Nat.pow_succ]
    omega

theorem littleEndian_congr {f g : Nat → Byte} {n : Nat} (h : ∀ k < n, f k = g k) :
    littleEndian f n = littleEndian g n := by
  induction n with
  | zero => rfl
  | succ n ih => rw [littleEndian, littleEndian, ih fun k hk => h k (by omega), h n (by omega)]

/-- Reading bytes off a number and putting them together again. -/
theorem littleEndian_byteOf (v : Word) (n : Nat) : littleEndian (byteOf v) n = v.toNat % 256 ^ n := by
  induction n with
  | zero => rw [littleEndian, Nat.pow_zero, Nat.mod_one]
  | succ n ih =>
    rw [littleEndian, ih, byteOf_toNat, Nat.pow_succ, Nat.mod_mul, Nat.mul_comm (_ / _ % _)]

/-- One more byte above `n` bytes. -/
theorem or_byte_toNat {v : Word} {n : Nat} (b : Byte) (hn : n < 4) (h : v.toNat < 256 ^ n) :
    (v ||| zextByte b <<< (8 * n)).toNat = v.toNat + b.toNat * 256 ^ n := by
  have hb := b.isLt
  have e : (256 : Nat) ^ n = 2 ^ (8 * n) := by rw [Nat.pow_mul]
  have hlt : b.toNat * 2 ^ (8 * n) < 2 ^ 32 := by
    obtain rfl | rfl | rfl | rfl : n = 0 ∨ n = 1 ∨ n = 2 ∨ n = 3 := by omega
    all_goals omega
  rw [BitVec.toNat_or, BitVec.toNat_shiftLeft, zextByte_toNat, Nat.shiftLeft_eq, Nat.mod_eq_of_lt hlt, Nat.or_comm,
    or_mul_eq _ _ _ (e ▸ h), e, Nat.add_comm]

/-- `MemRead` as a number. -/
theorem State.memRead_toNat (s : State) (ea : EA) {n : Nat} (hn : n ≤ 4) :
    (s.memRead ea n).toNat = littleEndian (fun k => s.read8 (s.byteAddr ea k)) n := by
  induction n with
  | zero => rfl
  | succ n ih =>
    have ih := ih (by omega)
    rw [State.memRead, or_byte_toNat _ (by omega) (by rw [ih]; exact littleEndian_lt _ _), ih, littleEndian]

theorem State.memRead_lt (s : State) (ea : EA) {n : Nat} (hn : n ≤ 4) : (s.memRead ea n).toNat < 256 ^ n := by
  rw [State.memRead_toNat s ea hn]; exact littleEndian_lt _ _

theorem Operand.value_lt (w : Width) (s : State) (o : Operand) : (o.value w s).toNat < 2 ^ w.bits := by
  cases o with
  | imm v => exact Width.trunc_lt w _
  | mem m => rw [Width.pow_bits]; exact s.memRead_lt _ w.bytes_le

/-- `MemRead` depends on memory, on how addresses reach it, and on nothing else. -/
theorem State.memRead_congr {s t : State} (hm : t.mem = s.mem) (hc : t.cfg = s.cfg) (h16 : t.e16 = s.e16)
    (hp : t.pbr = s.pbr) (ea : EA) (n : Nat) : t.memRead ea n = s.memRead ea n := by
  induction n with
  | zero => rfl
  | succ n ih =>
    rw [State.memRead, State.memRead, ih, State.read8_eq, State.read8_eq, State.byteAddr_congr h16 hp,
      State.phys_congr hc, hm]

/-! ## Writes -/

theorem State.read_write8 (k : BusKind) (a : Word) (v : Byte) (s : State) (c : Nat) :
    Mem.read (s.write8 k a v).mem c = if c = s.phys a then v else Mem.read s.mem c := Mem.read_write ..

/-- Writing bytes of a value leaves every other byte of memory as it was. -/
theorem State.read_writeBytes_other (ea : EA) (v : Word) (l : List Nat) (s : State) {c : Nat}
    (h : ∀ i ∈ l, c ≠ s.physByte ea i) : Mem.read (s.writeBytes ea v l).mem c = Mem.read s.mem c := by
  induction l generalizing s with
  | nil => rfl
  | cons i l ih =>
    rw [State.writeBytes, ih _ fun j hj => ?_, State.read_write8]
    · exact if_neg (h i List.mem_cons_self)
    exact h j (List.mem_cons_of_mem _ hj)

/-- Writing bytes of a value puts each of them at its own address, whatever the order. -/
theorem State.read_writeBytes (ea : EA) (v : Word) (l : List Nat) (s : State) {k : Nat} (hl : ∀ i ∈ l, i < 4)
    (hk : k ∈ l) : Mem.read (s.writeBytes ea v l).mem (s.physByte ea k) = byteOf v k := by
  induction l generalizing s with
  | nil => exact absurd hk List.not_mem_nil
  | cons i l ih =>
    by_cases h : k ∈ l
    · exact ih (s.write8 .dataWrite (s.byteAddr ea i) (byteOf v i)) (fun j hj => hl j (List.mem_cons_of_mem _ hj)) h
    · have hi : k = i := (List.mem_cons.1 hk).resolve_right h
      subst hi
      rw [State.writeBytes, State.read_writeBytes_other, State.read_write8]
      · exact if_pos rfl
      · intro j hj e
        have := s.physByte_inj ea (hl k List.mem_cons_self) (hl j (List.mem_cons_of_mem _ hj)) e
        exact h (this ▸ hj)

/-! ## The stack -/

theorem State.stackPtr_congr {s t : State} (h16 : t.e16 = s.e16) (h8 : t.e8 = s.e8) (r : StackRule) (sp : Half) :
    t.stackPtr r sp = s.stackPtr r sp := by
  cases r
  · rw [State.stackPtr, State.stackPtr, State.wrapS, State.wrapS, State.emu8_congr h16 h8]
  · rfl

theorem half_sub_one_toNat (h : Half) : (h - 1).toNat = (h.toNat + 65535) % 65536 := by
  have := h.isLt
  have one : (1 : Half).toNat = 1 := rfl
  rw [BitVec.toNat_sub, one]; omega

theorem half_add_one_toNat (h : Half) : (h + 1).toNat = (h.toNat + 1) % 65536 := by
  have one : (1 : Half).toNat = 1 := rfl
  rw [BitVec.toNat_add, one]

theorem pageOne_toNat (h : Half) : (pageOne h).toNat = 256 + h.toNat % 256 := by
  have one : (0x01 : Byte).toNat = 1 := rfl
  rw [pageOne, joinBytes_toNat, halfLo_toNat, one]

/-- S after `k` pushes, as a number. -/
theorem State.pushPtr_toNat (s : State) (r : StackRule) (k : Nat) :
    (s.pushPtr r k).toNat = if 0 < k ∧ r = .wrapping ∧ s.emu8 = true then 256 + (s.sp.toNat + 65536 - k % 65536) % 256
      else (s.sp.toNat + 65536 - k % 65536) % 65536 := by
  have hs := s.sp.isLt
  induction k with
  | zero => rw [if_neg (by omega), State.pushPtr]; omega
  | succ k ih =>
    rw [State.pushPtr]
    cases r with
    | plain =>
      rw [State.stackPtr, half_sub_one_toNat, ih, if_neg (by simp), if_neg (by simp)]
      omega
    | wrapping =>
      rw [State.stackPtr, State.wrapS]
      by_cases h : s.emu8 = true
      · rw [if_pos h, if_pos ⟨by omega, rfl, h⟩, pageOne_toNat, half_sub_one_toNat, ih]
        split <;> omega
      · rw [if_neg h, if_neg (by simp [h]), half_sub_one_toNat, ih, if_neg (by simp [h])]
        omega

/-- S after `k` pulls, as a number. -/
theorem State.pullPtr_toNat (s : State) (r : StackRule) (k : Nat) :
    (s.pullPtr r k).toNat = if 0 < k ∧ r = .wrapping ∧ s.emu8 = true then 256 + (s.sp.toNat + k) % 256
      else (s.sp.toNat + k) % 65536 := by
  have hs := s.sp.isLt
  induction k with
  | zero => rw [if_neg (by omega), State.pullPtr]; omega
  | succ k ih =>
    rw [State.pullPtr]
    cases r with
    | plain =>
      rw [State.stackPtr, half_add_one_toNat, ih, if_neg (by simp), if_neg (by simp)]
      omega
    | wrapping =>
      rw [State.stackPtr, State.wrapS]
      by_cases h : s.emu8 = true
      · rw [if_pos h, if_pos ⟨by omega, rfl, h⟩, pageOne_toNat, half_add_one_toNat, ih]
        split <;> omega
      · rw [if_neg h, if_neg (by simp [h]), half_add_one_toNat, ih, if_neg (by simp [h])]
        omega

/-- No two of the first few pushes write the same byte. -/
theorem State.pushPtr_inj (s : State) (r : StackRule) {i j : Nat} (hi : i < 256) (hj : j < 256)
    (h : (s.pushPtr r i).toNat = (s.pushPtr r j).toNat) : i = j := by
  have hs := s.sp.isLt
  rw [State.pushPtr_toNat, State.pushPtr_toNat] at h
  split at h <;> split at h <;> omega

@[simp] theorem State.push8_sp (r : StackRule) (v : Byte) (s : State) :
    (s.push8 r v).sp = s.stackPtr r (s.sp - 1) := rfl

/-- The byte pushed stands where S pointed; no other byte changes. -/
theorem State.read_push8 (r : StackRule) (v : Byte) (s : State) (c : Nat) :
    Mem.read (s.push8 r v).mem c = if c = s.sp.toNat then v else Mem.read s.mem c := by
  rw [← s.phys_zextHalf s.sp]; exact Mem.read_write ..

/-- `t` is `s` after the pushes of some bytes, as far as the stack can tell: they stand in memory, S has moved, and
stack addresses are formed as before. -/
structure Pushed (s t : State) (r : StackRule) (bs : List Byte) : Prop where
  bytes : pushedBytes s t r bs
  ptr : t.sp = s.pushPtr r bs.length
  e16 : t.e16 = s.e16
  e8 : t.e8 = s.e8
  cfg : t.cfg = s.cfg

theorem Pushed.refl (s : State) (r : StackRule) : Pushed s s r [] :=
  ⟨⟨fun _ h => absurd h (Nat.not_lt_zero _), fun _ _ => rfl⟩, rfl, rfl, rfl, rfl⟩

/-- One push more. -/
theorem Pushed.push8 {s t : State} {r : StackRule} {bs : List Byte} (h : Pushed s t r bs) (hn : bs.length < 200)
    (b : Byte) : Pushed s (t.push8 r b) r (bs ++ [b]) := by
  have hp : t.sp.toNat = s.stackPhys (s.pushPtr r bs.length) := by rw [State.stackPhys_eq, h.ptr]
  refine ⟨⟨fun k hk => ?_, fun a ha => ?_⟩, ?_, h.e16, h.e8, h.cfg⟩
  · rw [State.read_push8, hp]
    rw [List.length_append, List.length_singleton] at hk
    by_cases e : k = bs.length
    · subst e; simp
    · have hk' : k < bs.length := by omega
      rw [if_neg ?_, h.bytes.1 k hk', List.getElem_append_left hk']
      intro c
      rw [State.stackPhys_eq, State.stackPhys_eq] at c
      exact e (s.pushPtr_inj r (by omega) (by omega) c)
  · rw [State.read_push8, hp, if_neg (ha bs.length (by simp)), h.bytes.2 a fun k hk => ha k (by simp; omega)]
  · rw [State.push8_sp, State.stackPtr_congr h.e16 h.e8, h.ptr, List.length_append, List.length_singleton, State.pushPtr]

/-- A push of `n` bytes more, most significant first. -/
theorem Pushed.pushN {s t : State} {r : StackRule} {bs : List Byte} (h : Pushed s t r bs) (v : Word) (n : Nat)
    (hn : bs.length + n < 200) : Pushed s (t.pushN r v n) r (bs ++ bytesDown v n) := by
  induction n generalizing t bs with
  | zero => simpa [bytesDown, State.pushN] using h
  | succ n ih =>
    have := ih (h.push8 (by omega) (byteOf v n)) (by simp; omega)
    simpa [bytesDown, State.pushN, List.range_succ] using this

theorem bytesDown_length (v : Word) (n : Nat) : (bytesDown v n).length = n := by simp [bytesDown]

theorem bytesDown_half (h : Half) : bytesDown (zextHalf h) 2 = [halfHi h, halfLo h] := by
  rw [← byteOf_zextHalf_zero, ← byteOf_zextHalf_one]; rfl

/-- What a push of a value leaves in memory, and where S is then. -/
theorem State.pushN_spec (r : StackRule) (v : Word) (n : Nat) (hn : n < 200) (s : State) :
    Pushed s (s.pushN r v n) r (bytesDown v n) := by
  simpa using (Pushed.refl s r).pushN v n (by simpa using hn)

@[simp] theorem State.pull8_sp (r : StackRule) (s : State) : (s.pull8 r).2.sp = s.stackPtr r (s.sp + 1) := rfl

theorem State.pull8_val (r : StackRule) (s : State) : (s.pull8 r).1 = s.pulledByte r 1 := rfl

theorem State.pullN_sp (r : StackRule) (n : Nat) (s : State) : (s.pullN r n).2.sp = s.pullPtr r n := by
  induction n with
  | zero => rfl
  | succ n ih =>
    rw [State.pullN, State.pull8_sp, ih, State.stackPtr_congr (State.pullN_e16 ..) (State.pullN_e8 ..), State.pullPtr]

/-- The value of a pull: the bytes above S, the nearest one lowest. -/
theorem State.pullN_toNat (r : StackRule) (n : Nat) (hn : n ≤ 4) (s : State) :
    (s.pullN r n).1.toNat = s.pulled r n := by
  induction n with
  | zero => rfl
  | succ n ih =>
    have ih := ih (by omega)
    have hv : ((s.pullN r n).2.pull8 r).1 = s.pulledByte r (n + 1) := by
      rw [State.pull8_val, State.pulledByte, State.pulledByte, State.pullN_mem, State.stackPhys_eq, State.stackPhys_eq]
      simp only [State.pullPtr]
      rw [State.pullN_sp, State.stackPtr_congr (State.pullN_e16 ..) (State.pullN_e8 ..)]
    rw [State.pullN, or_byte_toNat _ (by omega) (by rw [ih]; exact littleEndian_lt _ _), ih, hv, State.pulled, State.pulled, littleEndian]

/-! ## Normalisation -/

theorem State.normalise_p (old : Width) (s : State) :
    (s.normalise old).p = if s.emu8 then { s.p with m := true, x := true } else s.p := by
  have h1 : ∀ u : State, u.normIndex.p = u.p := fun u => by delta State.normIndex; split <;> rfl
  have h2 : ∀ u : State, (u.normWiden old).p = u.p := fun u => by
    delta State.normWiden; split
    · split <;> rfl
    · rfl
  rw [State.normalise, h2, h1]
  delta State.normEmu8
  split <;> rfl

theorem State.normalise_sp (old : Width) (s : State) :
    (s.normalise old).sp = if s.emu8 then pageOne s.sp else s.sp := by
  have h1 : ∀ u : State, u.normIndex.sp = u.sp := fun u => by delta State.normIndex; split <;> rfl
  have h2 : ∀ u : State, (u.normWiden old).sp = u.sp := fun u => by
    delta State.normWiden; split
    · split <;> rfl
    · rfl
  rw [State.normalise, h2, h1]
  delta State.normEmu8
  split <;> rfl

/-- Without the widening of the index from 16 to 32 bits, X and Y are only cut to a byte, and only if Xf is 1. -/
theorem State.normalise_index (old : Width) (s : State)
    (h : ¬(old = .w16 ∧ s.e16 = false ∧ s.p.x = false)) :
    (s.normalise old).x = (if (s.normalise old).p.x then Width.w8.trunc s.x else s.x) ∧
      (s.normalise old).y = (if (s.normalise old).p.x then Width.w8.trunc s.y else s.y) ∧
      (s.normalise old).freeIdx = s.freeIdx := by
  have hw : s.normEmu8.normIndex.normWiden old = s.normEmu8.normIndex := by
    delta State.normWiden
    refine if_neg fun c => h ⟨c.1, ?_⟩
    have c2 := c.2
    rw [State.xw, State.normIndex_p, State.normIndex_e16, State.normEmu8_e16, idxWidth] at c2
    split at c2
    · exact absurd c2 (by decide)
    · rename_i hx
      split at c2
      · exact absurd c2 (by decide)
      · rename_i he
        refine ⟨by simpa using he, ?_⟩
        have he' : s.emu8 = false := by rw [State.emu8]; simp [he]
        have : s.normEmu8 = s := by delta State.normEmu8; rw [if_neg (by simp [he'])]
        rw [this] at hx
        simpa using hx
  have hp : (s.normalise old).p = s.normEmu8.p := by rw [State.normalise, hw, State.normIndex_p]
  have hx : s.normEmu8.x = s.x := State.normEmu8_x s
  have hy : s.normEmu8.y = s.y := State.normEmu8_y s
  have hf : s.normEmu8.freeIdx = s.freeIdx := State.normEmu8_freeIdx s
  rw [hp, State.normalise, hw]
  delta State.normIndex
  split
  · exact ⟨congrArg Width.w8.trunc hx, congrArg Width.w8.trunc hy, hf⟩
  · exact ⟨hx, hy, hf⟩

/-! ## Flags -/

theorem isZero_eq (w : Width) (v : Word) : isZero w v = decide (v.toNat % 2 ^ w.bits = 0) := by
  rw [isZero, ← Width.trunc_toNat]
  rw [Bool.eq_iff_iff, beq_iff_eq, decide_eq_true_iff]
  exact ⟨fun h => by rw [h]; rfl, fun h => BitVec.eq_of_toNat_eq h⟩

theorem Width.msb_eq (w : Width) (v : Word) : w.msb v = v.toNat.testBit (w.bits - 1) := rfl

/-- N and Z see a value only modulo the width. -/
theorem Status.withNZ_congr (w : Width) {a b : Nat} (h : a % 2 ^ w.bits = b % 2 ^ w.bits) (p : Status) :
    p.withNZ w a = p.withNZ w b := by
  have ht : a.testBit (w.bits - 1) = b.testBit (w.bits - 1) := by
    have hlt : w.bits - 1 < w.bits := by cases w <;> decide
    have e : ∀ n : Nat, n.testBit (w.bits - 1) = (n % 2 ^ w.bits).testBit (w.bits - 1) := fun n => by
      rw [Nat.testBit_mod_two_pow]; simp [hlt]
    rw [e a, e b, h]
  rw [Status.withNZ, Status.withNZ, ht, h]

theorem Status.nz_eq (w : Width) (v : Word) (p : Status) : p.nz w v = p.withNZ w v.toNat := by
  rw [Status.nz, Status.withNZ, isZero_eq, Width.msb_eq]

theorem State.setNZ_p (w : Width) (v : Word) (s : State) : (s.setNZ w v).p = s.p.withNZ w v.toNat :=
  Status.nz_eq w v s.p

theorem State.writeA_spec (w : Width) (v : Word) (s : State) : writesLow w s.a v.toNat (s.writeA w v).a :=
  ⟨Width.merge_mod w s.a v, Width.merge_div w s.a v⟩

theorem State.writeX_spec (w : Width) (v : Word) (s : State) : writesLow w s.x v.toNat (s.writeX w v).x :=
  ⟨Width.merge_mod w s.x v, Width.merge_div w s.x v⟩

theorem State.writeY_spec (w : Width) (v : Word) (s : State) : writesLow w s.y v.toNat (s.writeY w v).y :=
  ⟨Width.merge_mod w s.y v, Width.merge_div w s.y v⟩

theorem State.am_toNat (s : State) : s.am.toNat = s.amNat := Width.trunc_toNat s.mw s.a

theorem State.ix_toNat (s : State) : s.ix.toNat = s.x.toNat % 2 ^ s.xw.bits := Width.trunc_toNat s.xw s.x

theorem State.iy_toNat (s : State) : s.iy.toNat = s.y.toNat % 2 ^ s.xw.bits := Width.trunc_toNat s.xw s.y

theorem isZero_am (s : State) (m : Word) : isZero s.mw (s.am &&& m) = decide (s.amNat &&& m.toNat = 0) := by
  have h : s.am.toNat < 2 ^ s.mw.bits := Width.trunc_lt s.mw s.a
  rw [isZero_eq, BitVec.toNat_and, Nat.mod_eq_of_lt (Nat.lt_of_le_of_lt Nat.and_le_left h), State.am_toNat]

theorem width_not_toNat (w : Width) (v : Word) (h : v.toNat < 2 ^ w.bits) :
    (w.not v).toNat = 2 ^ w.bits - 1 - v.toNat := by
  have hv := v.isLt
  rw [Width.not, Width.trunc_toNat, BitVec.toNat_not]
  cases w <;> simp only [Width.bits] at h ⊢ <;> omega

theorem addBinary_r (w : Width) (a m : Word) (c : Bool) :
    (addBinary w a m c).r.toNat = addSum w a m c % 2 ^ w.bits := by
  have h : 2 ^ w.bits ≤ 2 ^ 32 := by cases w <;> decide
  exact (BitVec.toNat_ofNat ..).trans
    (Nat.mod_eq_of_lt (Nat.lt_of_lt_of_le (Nat.mod_lt _ (Nat.two_pow_pos _)) h))

theorem addBinary_cout (w : Width) (a m : Word) (c : Bool) :
    (addBinary w a m c).cout = decide (2 ^ w.bits ≤ addSum w a m c) := rfl

/-- PC after an instruction has advanced it. -/
theorem State.advance_pc (n : Nat) (s : State) : (s.advance n).pc.toNat = (s.pc.toNat + n) % 65536 := by
  show (s.pc + BitVec.ofNat 16 n).toNat = _
  rw [BitVec.toNat_add, BitVec.toNat_ofNat]; omega

/-! ## The canonical form of memory -/

/-- Memory is in canonical form and inside the physical space. -/
def State.MemOk (s : State) : Prop := Mem.wf s.mem ∧ Mem.inSpace s.cfg.addrBits.bits s.mem

theorem State.memOk_congr {s t : State} (hm : t.mem = s.mem) (hc : t.cfg = s.cfg) (h : s.MemOk) : t.MemOk := by
  rw [State.MemOk, hm, hc]; exact h

theorem State.memOk_write8 (k : BusKind) (a : Word) (v : Byte) {s : State} (h : s.MemOk) : (s.write8 k a v).MemOk :=
  ⟨Mem.wf_write _ _ h.1, Mem.inSpace_write v (s.addr_lt a) h.2⟩

theorem State.memOk_writeBytes (ea : EA) (v : Word) (l : List Nat) {s : State} (h : s.MemOk) :
    (s.writeBytes ea v l).MemOk := by
  induction l generalizing s with
  | nil => exact h
  | cons i l ih => exact ih (State.memOk_write8 _ _ _ h)

theorem State.memOk_memWrite (ea : EA) (n : Nat) (v : Word) {s : State} (h : s.MemOk) : (s.memWrite ea n v).MemOk :=
  State.memOk_writeBytes ea v _ h

theorem State.memOk_memWriteBack (ea : EA) (n : Nat) (v : Word) {s : State} (h : s.MemOk) :
    (s.memWriteBack ea n v).MemOk := State.memOk_writeBytes ea v _ h

theorem State.memOk_push8 (r : StackRule) (v : Byte) {s : State} (h : s.MemOk) : (s.push8 r v).MemOk :=
  State.memOk_write8 .stackWrite (zextHalf s.sp) v h

theorem State.memOk_pushN (r : StackRule) (v : Word) (n : Nat) {s : State} (h : s.MemOk) : (s.pushN r v n).MemOk := by
  induction n generalizing s with
  | zero => exact h
  | succ n ih => exact ih (State.memOk_push8 r _ h)

theorem State.memOk_reset : State.reset.MemOk := ⟨Mem.wf_nil, fun _ h => absurd h List.not_mem_nil⟩

end Sys2Proof.Machine
end

