-- ==== Sys2Proof/Laws/PerInstr.lean ====
section
/-! SUPPORT. A property of every instruction as syntax, one lemma for each: the encoding of an instruction is as long as
the instruction says it is (R100, R101, R103). -/

namespace Sys2Proof.Laws.EncodedLength

/-- The bytes of an instruction are as many as its length (R101). -/
def Statement (i : Instr) : Prop := ∀ c : DecodeCtx, (encode c i).length = i.len

/-- The bytes of an immediate are as many as its width (R103). -/
theorem imm_length (v : Imm) : v.encode.length = v.width.bytes := by cases v <;> rfl

/-- An instruction is an opcode byte and its operand field (R100, R101). -/
theorem of_operands {i : Instr} {n : Nat} (h : i.operands.encode.length = n) (hl : i.len = n + 1) : Statement i :=
  fun _ => (congrArg (· + 1) h).trans hl.symm

theorem brk (v : Byte) : Statement (.brk v) := fun _ => rfl
theorem oraDirXInd (v : Byte) : Statement (.oraDirXInd v) := fun _ => rfl
theorem cop (v : Byte) : Statement (.cop v) := fun _ => rfl
theorem oraStk (v : Byte) : Statement (.oraStk v) := fun _ => rfl
theorem tsbDir (v : Byte) : Statement (.tsbDir v) := fun _ => rfl
theorem oraDir (v : Byte) : Statement (.oraDir v) := fun _ => rfl
theorem aslDir (v : Byte) : Statement (.aslDir v) := fun _ => rfl
theorem oraDirLong (v : Byte) : Statement (.oraDirLong v) := fun _ => rfl
theorem oraImm (v : Imm) : Statement (.oraImm v) := of_operands (imm_length v) (Nat.add_comm ..)
theorem tsbAbs (v : Half) : Statement (.tsbAbs v) := fun _ => rfl
theorem oraAbs (v : Half) : Statement (.oraAbs v) := fun _ => rfl
theorem aslAbs (v : Half) : Statement (.aslAbs v) := fun _ => rfl
theorem oraLong (v : BitVec 24) : Statement (.oraLong v) := fun _ => rfl
theorem bpl (v : Byte) : Statement (.bpl v) := fun _ => rfl
theorem oraDirIndY (v : Byte) : Statement (.oraDirIndY v) := fun _ => rfl
theorem oraDirInd (v : Byte) : Statement (.oraDirInd v) := fun _ => rfl
theorem oraStkIndY (v : Byte) : Statement (.oraStkIndY v) := fun _ => rfl
theorem trbDir (v : Byte) : Statement (.trbDir v) := fun _ => rfl
theorem oraDirX (v : Byte) : Statement (.oraDirX v) := fun _ => rfl
theorem aslDirX (v : Byte) : Statement (.aslDirX v) := fun _ => rfl
theorem oraDirLongY (v : Byte) : Statement (.oraDirLongY v) := fun _ => rfl
theorem oraAbsY (v : Half) : Statement (.oraAbsY v) := fun _ => rfl
theorem trbAbs (v : Half) : Statement (.trbAbs v) := fun _ => rfl
theorem oraAbsX (v : Half) : Statement (.oraAbsX v) := fun _ => rfl
theorem aslAbsX (v : Half) : Statement (.aslAbsX v) := fun _ => rfl
theorem oraLongX (v : BitVec 24) : Statement (.oraLongX v) := fun _ => rfl
theorem jsrAbs (v : Half) : Statement (.jsrAbs v) := fun _ => rfl
theorem andDirXInd (v : Byte) : Statement (.andDirXInd v) := fun _ => rfl
theorem jsl (v : BitVec 24) : Statement (.jsl v) := fun _ => rfl
theorem andStk (v : Byte) : Statement (.andStk v) := fun _ => rfl
theorem bitDir (v : Byte) : Statement (.bitDir v) := fun _ => rfl
theorem andDir (v : Byte) : Statement (.andDir v) := fun _ => rfl
theorem rolDir (v : Byte) : Statement (.rolDir v) := fun _ => rfl
theorem andDirLong (v : Byte) : Statement (.andDirLong v) := fun _ => rfl
theorem andImm (v : Imm) : Statement (.andImm v) := of_operands (imm_length v) (Nat.add_comm ..)
theorem bitAbs (v : Half) : Statement (.bitAbs v) := fun _ => rfl
theorem andAbs (v : Half) : Statement (.andAbs v) := fun _ => rfl
theorem rolAbs (v : Half) : Statement (.rolAbs v) := fun _ => rfl
theorem andLong (v : BitVec 24) : Statement (.andLong v) := fun _ => rfl
theorem bmi (v : Byte) : Statement (.bmi v) := fun _ => rfl
theorem andDirIndY (v : Byte) : Statement (.andDirIndY v) := fun _ => rfl
theorem andDirInd (v : Byte) : Statement (.andDirInd v) := fun _ => rfl
theorem andStkIndY (v : Byte) : Statement (.andStkIndY v) := fun _ => rfl
theorem bitDirX (v : Byte) : Statement (.bitDirX v) := fun _ => rfl
theorem andDirX (v : Byte) : Statement (.andDirX v) := fun _ => rfl
theorem rolDirX (v : Byte) : Statement (.rolDirX v) := fun _ => rfl
theorem andDirLongY (v : Byte) : Statement (.andDirLongY v) := fun _ => rfl
theorem andAbsY (v : Half) : Statement (.andAbsY v) := fun _ => rfl
theorem bitAbsX (v : Half) : Statement (.bitAbsX v) := fun _ => rfl
theorem andAbsX (v : Half) : Statement (.andAbsX v) := fun _ => rfl
theorem rolAbsX (v : Half) : Statement (.rolAbsX v) := fun _ => rfl
theorem andLongX (v : BitVec 24) : Statement (.andLongX v) := fun _ => rfl
theorem eorDirXInd (v : Byte) : Statement (.eorDirXInd v) := fun _ => rfl
theorem wdm (v : Byte) : Statement (.wdm v) := fun _ => rfl
theorem eorStk (v : Byte) : Statement (.eorStk v) := fun _ => rfl
theorem mvp (b : BlockBanks) : Statement (.mvp b) := fun _ => by cases b <;> rfl
theorem eorDir (v : Byte) : Statement (.eorDir v) := fun _ => rfl
theorem lsrDir (v : Byte) : Statement (.lsrDir v) := fun _ => rfl
theorem eorDirLong (v : Byte) : Statement (.eorDirLong v) := fun _ => rfl
theorem eorImm (v : Imm) : Statement (.eorImm v) := of_operands (imm_length v) (Nat.add_comm ..)
theorem jmpAbs (v : Half) : Statement (.jmpAbs v) := fun _ => rfl
theorem eorAbs (v : Half) : Statement (.eorAbs v) := fun _ => rfl
theorem lsrAbs (v : Half) : Statement (.lsrAbs v) := fun _ => rfl
theorem eorLong (v : BitVec 24) : Statement (.eorLong v) := fun _ => rfl
theorem bvc (v : Byte) : Statement (.bvc v) := fun _ => rfl
theorem eorDirIndY (v : Byte) : Statement (.eorDirIndY v) := fun _ => rfl
theorem eorDirInd (v : Byte) : Statement (.eorDirInd v) := fun _ => rfl
theorem eorStkIndY (v : Byte) : Statement (.eorStkIndY v) := fun _ => rfl
theorem mvn (b : BlockBanks) : Statement (.mvn b) := fun _ => by cases b <;> rfl
theorem eorDirX (v : Byte) : Statement (.eorDirX v) := fun _ => rfl
theorem lsrDirX (v : Byte) : Statement (.lsrDirX v) := fun _ => rfl
theorem eorDirLongY (v : Byte) : Statement (.eorDirLongY v) := fun _ => rfl
theorem eorAbsY (v : Half) : Statement (.eorAbsY v) := fun _ => rfl
theorem jmpLong (v : BitVec 24) : Statement (.jmpLong v) := fun _ => rfl
theorem eorAbsX (v : Half) : Statement (.eorAbsX v) := fun _ => rfl
theorem lsrAbsX (v : Half) : Statement (.lsrAbsX v) := fun _ => rfl
theorem eorLongX (v : BitVec 24) : Statement (.eorLongX v) := fun _ => rfl
theorem adcDirXInd (v : Byte) : Statement (.adcDirXInd v) := fun _ => rfl
theorem per (v : Half) : Statement (.per v) := fun _ => rfl
theorem adcStk (v : Byte) : Statement (.adcStk v) := fun _ => rfl
theorem stzDir (v : Byte) : Statement (.stzDir v) := fun _ => rfl
theorem adcDir (v : Byte) : Statement (.adcDir v) := fun _ => rfl
theorem rorDir (v : Byte) : Statement (.rorDir v) := fun _ => rfl
theorem adcDirLong (v : Byte) : Statement (.adcDirLong v) := fun _ => rfl
theorem adcImm (v : Imm) : Statement (.adcImm v) := of_operands (imm_length v) (Nat.add_comm ..)
theorem jmpAbsInd (v : Half) : Statement (.jmpAbsInd v) := fun _ => rfl
theorem adcAbs (v : Half) : Statement (.adcAbs v) := fun _ => rfl
theorem rorAbs (v : Half) : Statement (.rorAbs v) := fun _ => rfl
theorem adcLong (v : BitVec 24) : Statement (.adcLong v) := fun _ => rfl
theorem bvs (v : Byte) : Statement (.bvs v) := fun _ => rfl
theorem adcDirIndY (v : Byte) : Statement (.adcDirIndY v) := fun _ => rfl
theorem adcDirInd (v : Byte) : Statement (.adcDirInd v) := fun _ => rfl
theorem adcStkIndY (v : Byte) : Statement (.adcStkIndY v) := fun _ => rfl
theorem stzDirX (v : Byte) : Statement (.stzDirX v) := fun _ => rfl
theorem adcDirX (v : Byte) : Statement (.adcDirX v) := fun _ => rfl
theorem rorDirX (v : Byte) : Statement (.rorDirX v) := fun _ => rfl
theorem adcDirLongY (v : Byte) : Statement (.adcDirLongY v) := fun _ => rfl
theorem adcAbsY (v : Half) : Statement (.adcAbsY v) := fun _ => rfl
theorem jmpAbsXInd (v : Half) : Statement (.jmpAbsXInd v) := fun _ => rfl
theorem adcAbsX (v : Half) : Statement (.adcAbsX v) := fun _ => rfl
theorem rorAbsX (v : Half) : Statement (.rorAbsX v) := fun _ => rfl
theorem adcLongX (v : BitVec 24) : Statement (.adcLongX v) := fun _ => rfl
theorem bra (v : Byte) : Statement (.bra v) := fun _ => rfl
theorem staDirXInd (v : Byte) : Statement (.staDirXInd v) := fun _ => rfl
theorem brl (v : Half) : Statement (.brl v) := fun _ => rfl
theorem staStk (v : Byte) : Statement (.staStk v) := fun _ => rfl
theorem styDir (v : Byte) : Statement (.styDir v) := fun _ => rfl
theorem staDir (v : Byte) : Statement (.staDir v) := fun _ => rfl
theorem stxDir (v : Byte) : Statement (.stxDir v) := fun _ => rfl
theorem staDirLong (v : Byte) : Statement (.staDirLong v) := fun _ => rfl
theorem bitImm (v : Imm) : Statement (.bitImm v) := of_operands (imm_length v) (Nat.add_comm ..)
theorem styAbs (v : Half) : Statement (.styAbs v) := fun _ => rfl
theorem staAbs (v : Half) : Statement (.staAbs v) := fun _ => rfl
theorem stxAbs (v : Half) : Statement (.stxAbs v) := fun _ => rfl
theorem staLong (v : BitVec 24) : Statement (.staLong v) := fun _ => rfl
theorem bcc (v : Byte) : Statement (.bcc v) := fun _ => rfl
theorem staDirIndY (v : Byte) : Statement (.staDirIndY v) := fun _ => rfl
theorem staDirInd (v : Byte) : Statement (.staDirInd v) := fun _ => rfl
theorem staStkIndY (v : Byte) : Statement (.staStkIndY v) := fun _ => rfl
theorem styDirX (v : Byte) : Statement (.styDirX v) := fun _ => rfl
theorem staDirX (v : Byte) : Statement (.staDirX v) := fun _ => rfl
theorem stxDirY (v : Byte) : Statement (.stxDirY v) := fun _ => rfl
theorem staDirLongY (v : Byte) : Statement (.staDirLongY v) := fun _ => rfl
theorem staAbsY (v : Half) : Statement (.staAbsY v) := fun _ => rfl
theorem stzAbs (v : Half) : Statement (.stzAbs v) := fun _ => rfl
theorem staAbsX (v : Half) : Statement (.staAbsX v) := fun _ => rfl
theorem stzAbsX (v : Half) : Statement (.stzAbsX v) := fun _ => rfl
theorem staLongX (v : BitVec 24) : Statement (.staLongX v) := fun _ => rfl
theorem ldyImm (v : Imm) : Statement (.ldyImm v) := of_operands (imm_length v) (Nat.add_comm ..)
theorem ldaDirXInd (v : Byte) : Statement (.ldaDirXInd v) := fun _ => rfl
theorem ldxImm (v : Imm) : Statement (.ldxImm v) := of_operands (imm_length v) (Nat.add_comm ..)
theorem ldaStk (v : Byte) : Statement (.ldaStk v) := fun _ => rfl
theorem ldyDir (v : Byte) : Statement (.ldyDir v) := fun _ => rfl
theorem ldaDir (v : Byte) : Statement (.ldaDir v) := fun _ => rfl
theorem ldxDir (v : Byte) : Statement (.ldxDir v) := fun _ => rfl
theorem ldaDirLong (v : Byte) : Statement (.ldaDirLong v) := fun _ => rfl
theorem ldaImm (v : Imm) : Statement (.ldaImm v) := of_operands (imm_length v) (Nat.add_comm ..)
theorem ldyAbs (v : Half) : Statement (.ldyAbs v) := fun _ => rfl
theorem ldaAbs (v : Half) : Statement (.ldaAbs v) := fun _ => rfl
theorem ldxAbs (v : Half) : Statement (.ldxAbs v) := fun _ => rfl
theorem ldaLong (v : BitVec 24) : Statement (.ldaLong v) := fun _ => rfl
theorem bcs (v : Byte) : Statement (.bcs v) := fun _ => rfl
theorem ldaDirIndY (v : Byte) : Statement (.ldaDirIndY v) := fun _ => rfl
theorem ldaDirInd (v : Byte) : Statement (.ldaDirInd v) := fun _ => rfl
theorem ldaStkIndY (v : Byte) : Statement (.ldaStkIndY v) := fun _ => rfl
theorem ldyDirX (v : Byte) : Statement (.ldyDirX v) := fun _ => rfl
theorem ldaDirX (v : Byte) : Statement (.ldaDirX v) := fun _ => rfl
theorem ldxDirY (v : Byte) : Statement (.ldxDirY v) := fun _ => rfl
theorem ldaDirLongY (v : Byte) : Statement (.ldaDirLongY v) := fun _ => rfl
theorem ldaAbsY (v : Half) : Statement (.ldaAbsY v) := fun _ => rfl
theorem ldyAbsX (v : Half) : Statement (.ldyAbsX v) := fun _ => rfl
theorem ldaAbsX (v : Half) : Statement (.ldaAbsX v) := fun _ => rfl
theorem ldxAbsY (v : Half) : Statement (.ldxAbsY v) := fun _ => rfl
theorem ldaLongX (v : BitVec 24) : Statement (.ldaLongX v) := fun _ => rfl
theorem cpyImm (v : Imm) : Statement (.cpyImm v) := of_operands (imm_length v) (Nat.add_comm ..)
theorem cmpDirXInd (v : Byte) : Statement (.cmpDirXInd v) := fun _ => rfl
theorem rep (v : Byte) : Statement (.rep v) := fun _ => rfl
theorem cmpStk (v : Byte) : Statement (.cmpStk v) := fun _ => rfl
theorem cpyDir (v : Byte) : Statement (.cpyDir v) := fun _ => rfl
theorem cmpDir (v : Byte) : Statement (.cmpDir v) := fun _ => rfl
theorem decDir (v : Byte) : Statement (.decDir v) := fun _ => rfl
theorem cmpDirLong (v : Byte) : Statement (.cmpDirLong v) := fun _ => rfl
theorem cmpImm (v : Imm) : Statement (.cmpImm v) := of_operands (imm_length v) (Nat.add_comm ..)
theorem cpyAbs (v : Half) : Statement (.cpyAbs v) := fun _ => rfl
theorem cmpAbs (v : Half) : Statement (.cmpAbs v) := fun _ => rfl
theorem decAbs (v : Half) : Statement (.decAbs v) := fun _ => rfl
theorem cmpLong (v : BitVec 24) : Statement (.cmpLong v) := fun _ => rfl
theorem bne (v : Byte) : Statement (.bne v) := fun _ => rfl
theorem cmpDirIndY (v : Byte) : Statement (.cmpDirIndY v) := fun _ => rfl
theorem cmpDirInd (v : Byte) : Statement (.cmpDirInd v) := fun _ => rfl
theorem cmpStkIndY (v : Byte) : Statement (.cmpStkIndY v) := fun _ => rfl
theorem pei (v : Byte) : Statement (.pei v) := fun _ => rfl
theorem cmpDirX (v : Byte) : Statement (.cmpDirX v) := fun _ => rfl
theorem decDirX (v : Byte) : Statement (.decDirX v) := fun _ => rfl
theorem cmpDirLongY (v : Byte) : Statement (.cmpDirLongY v) := fun _ => rfl
theorem cmpAbsY (v : Half) : Statement (.cmpAbsY v) := fun _ => rfl
theorem jml (v : Half) : Statement (.jml v) := fun _ => rfl
theorem cmpAbsX (v : Half) : Statement (.cmpAbsX v) := fun _ => rfl
theorem decAbsX (v : Half) : Statement (.decAbsX v) := fun _ => rfl
theorem cmpLongX (v : BitVec 24) : Statement (.cmpLongX v) := fun _ => rfl
theorem cpxImm (v : Imm) : Statement (.cpxImm v) := of_operands (imm_length v) (Nat.add_comm ..)
theorem sbcDirXInd (v : Byte) : Statement (.sbcDirXInd v) := fun _ => rfl
theorem sep (v : Byte) : Statement (.sep v) := fun _ => rfl
theorem sbcStk (v : Byte) : Statement (.sbcStk v) := fun _ => rfl
theorem cpxDir (v : Byte) : Statement (.cpxDir v) := fun _ => rfl
theorem sbcDir (v : Byte) : Statement (.sbcDir v) := fun _ => rfl
theorem incDir (v : Byte) : Statement (.incDir v) := fun _ => rfl
theorem sbcDirLong (v : Byte) : Statement (.sbcDirLong v) := fun _ => rfl
theorem sbcImm (v : Imm) : Statement (.sbcImm v) := of_operands (imm_length v) (Nat.add_comm ..)
theorem cpxAbs (v : Half) : Statement (.cpxAbs v) := fun _ => rfl
theorem sbcAbs (v : Half) : Statement (.sbcAbs v) := fun _ => rfl
theorem incAbs (v : Half) : Statement (.incAbs v) := fun _ => rfl
theorem sbcLong (v : BitVec 24) : Statement (.sbcLong v) := fun _ => rfl
theorem beq (v : Byte) : Statement (.beq v) := fun _ => rfl
theorem sbcDirIndY (v : Byte) : Statement (.sbcDirIndY v) := fun _ => rfl
theorem sbcDirInd (v : Byte) : Statement (.sbcDirInd v) := fun _ => rfl
theorem sbcStkIndY (v : Byte) : Statement (.sbcStkIndY v) := fun _ => rfl
theorem pea (v : Half) : Statement (.pea v) := fun _ => rfl
theorem sbcDirX (v : Byte) : Statement (.sbcDirX v) := fun _ => rfl
theorem incDirX (v : Byte) : Statement (.incDirX v) := fun _ => rfl
theorem sbcDirLongY (v : Byte) : Statement (.sbcDirLongY v) := fun _ => rfl
theorem sbcAbsY (v : Half) : Statement (.sbcAbsY v) := fun _ => rfl
theorem jsrAbsXInd (v : Half) : Statement (.jsrAbsXInd v) := fun _ => rfl
theorem sbcAbsX (v : Half) : Statement (.sbcAbsX v) := fun _ => rfl
theorem incAbsX (v : Half) : Statement (.incAbsX v) := fun _ => rfl
theorem sbcLongX (v : BitVec 24) : Statement (.sbcLongX v) := fun _ => rfl
theorem php : Statement .php := fun _ => rfl
theorem aslAcc : Statement .aslAcc := fun _ => rfl
theorem phd : Statement .phd := fun _ => rfl
theorem clc : Statement .clc := fun _ => rfl
theorem incAcc : Statement .incAcc := fun _ => rfl
theorem tcs : Statement .tcs := fun _ => rfl
theorem plp : Statement .plp := fun _ => rfl
theorem rolAcc : Statement .rolAcc := fun _ => rfl
theorem pld : Statement .pld := fun _ => rfl
theorem sec : Statement .sec := fun _ => rfl
theorem decAcc : Statement .decAcc := fun _ => rfl
theorem tsc : Statement .tsc := fun _ => rfl
theorem rti : Statement .rti := fun _ => rfl
theorem pha : Statement .pha := fun _ => rfl
theorem lsrAcc : Statement .lsrAcc := fun _ => rfl
theorem phk : Statement .phk := fun _ => rfl
theorem cli : Statement .cli := fun _ => rfl
theorem phy : Statement .phy := fun _ => rfl
theorem tcd : Statement .tcd := fun _ => rfl
theorem rts : Statement .rts := fun _ => rfl
theorem pla : Statement .pla := fun _ => rfl
theorem rorAcc : Statement .rorAcc := fun _ => rfl
theorem rtl : Statement .rtl := fun _ => rfl
theorem sei : Statement .sei := fun _ => rfl
theorem ply : Statement .ply := fun _ => rfl
theorem tdc : Statement .tdc := fun _ => rfl
theorem dey : Statement .dey := fun _ => rfl
theorem txa : Statement .txa := fun _ => rfl
theorem phb : Statement .phb := fun _ => rfl
theorem tya : Statement .tya := fun _ => rfl
theorem txs : Statement .txs := fun _ => rfl
theorem txy : Statement .txy := fun _ => rfl
theorem tay : Statement .tay := fun _ => rfl
theorem tax : Statement .tax := fun _ => rfl
theorem plb : Statement .plb := fun _ => rfl
theorem clv : Statement .clv := fun _ => rfl
theorem tsx : Statement .tsx := fun _ => rfl
theorem tyx : Statement .tyx := fun _ => rfl
theorem iny : Statement .iny := fun _ => rfl
theorem dex : Statement .dex := fun _ => rfl
theorem wai : Statement .wai := fun _ => rfl
theorem cld : Statement .cld := fun _ => rfl
theorem phx : Statement .phx := fun _ => rfl
theorem stp : Statement .stp := fun _ => rfl
theorem inx : Statement .inx := fun _ => rfl
theorem nop : Statement .nop := fun _ => rfl
theorem xba : Statement .xba := fun _ => rfl
theorem sed : Statement .sed := fun _ => rfl
theorem plx : Statement .plx := fun _ => rfl
theorem xce : Statement .xce := fun _ => rfl
theorem xfe : Statement .xfe := fun _ => rfl

end Sys2Proof.Laws.EncodedLength
end

