-- ==== Sys2Proof/Tests/Slice0.lean ====
section
/-! SUPPORT. Tests: ill-formed terms, words of the spec's encodings, the spec's test vectors (95_test_vectors.md), the
assembler examples of the spec, and a witness for the hypotheses of every statement. -/

namespace Sys2Proof.Tests

open Sys2Proof Sys2Proof.Machine

/-! ## Well-formedness: each check refuses a term -/

/-- 8-bit widths, outside native mode, without XFE. -/
def ctx8 : DecodeCtx := ⟨.w8, .w8, false, none⟩

/-- 32-bit widths, native mode, without XFE. -/
def ctx32 : DecodeCtx := ⟨.w32, .w32, true, none⟩

theorem test_wf_acc_immediate : (Instr.ldaImm (.b2 0x1234)).wf ctx8 = false := by decide

theorem test_wf_index_immediate : (Instr.ldxImm (.b1 0x12)).wf ctx32 = false := by decide

theorem test_wf_block_without_banks : (Instr.mvn .native).wf ctx8 = false := by decide

theorem test_wf_block_with_banks : (Instr.mvp (.banks 1 2)).wf ctx32 = false := by decide

theorem test_wf_xfe_without_opcode : Instr.xfe.wf ctx8 = false := by decide

theorem test_wf_good : (Instr.ldaImm (.b1 0x12)).wf ctx8 = true ∧ (Instr.mvn (.banks 1 2)).wf ctx8 = true ∧
    (Instr.mvn .native).wf ctx32 = true ∧ Instr.xfe.wf ⟨.w8, .w8, false, some 0x42⟩ = true := by decide

/-! ## Decoding: every cell of the matrix (R102), operand bytes 34 12 56 -/

/-- Each opcode byte, followed by the bytes 34 12 56 78, decodes to the instruction beside it, with 8-bit widths. -/
def reads (l : List (Byte × Instr)) : Bool :=
  l.all fun p => (decode ctx8 [p.1, 0x34, 0x12, 0x56, 0x78]).toOption.map (·.1) == some p.2

theorem test_decode_row_0 : reads [(0x00, .brk 0x34), (0x01, .oraDirXInd 0x34), (0x02, .cop 0x34), (0x03, .oraStk
    0x34), (0x04, .tsbDir 0x34), (0x05, .oraDir 0x34), (0x06, .aslDir 0x34), (0x07, .oraDirLong 0x34), (0x08, .php),
    (0x09, .oraImm (.b1 0x34)), (0x0A, .aslAcc), (0x0B, .phd), (0x0C, .tsbAbs 0x1234), (0x0D, .oraAbs 0x1234),
    (0x0E, .aslAbs 0x1234), (0x0F, .oraLong 0x561234)] = true := by decide

theorem test_decode_row_1 : reads [(0x10, .bpl 0x34), (0x11, .oraDirIndY 0x34), (0x12, .oraDirInd 0x34), (0x13,
    .oraStkIndY 0x34), (0x14, .trbDir 0x34), (0x15, .oraDirX 0x34), (0x16, .aslDirX 0x34), (0x17, .oraDirLongY
    0x34), (0x18, .clc), (0x19, .oraAbsY 0x1234), (0x1A, .incAcc), (0x1B, .tcs), (0x1C, .trbAbs 0x1234), (0x1D,
    .oraAbsX 0x1234), (0x1E, .aslAbsX 0x1234), (0x1F, .oraLongX 0x561234)] = true := by decide

theorem test_decode_row_2 : reads [(0x20, .jsrAbs 0x1234), (0x21, .andDirXInd 0x34), (0x22, .jsl 0x561234), (0x23,
    .andStk 0x34), (0x24, .bitDir 0x34), (0x25, .andDir 0x34), (0x26, .rolDir 0x34), (0x27, .andDirLong 0x34),
    (0x28, .plp), (0x29, .andImm (.b1 0x34)), (0x2A, .rolAcc), (0x2B, .pld), (0x2C, .bitAbs 0x1234), (0x2D, .andAbs
    0x1234), (0x2E, .rolAbs 0x1234), (0x2F, .andLong 0x561234)] = true := by decide

theorem test_decode_row_3 : reads [(0x30, .bmi 0x34), (0x31, .andDirIndY 0x34), (0x32, .andDirInd 0x34), (0x33,
    .andStkIndY 0x34), (0x34, .bitDirX 0x34), (0x35, .andDirX 0x34), (0x36, .rolDirX 0x34), (0x37, .andDirLongY
    0x34), (0x38, .sec), (0x39, .andAbsY 0x1234), (0x3A, .decAcc), (0x3B, .tsc), (0x3C, .bitAbsX 0x1234), (0x3D,
    .andAbsX 0x1234), (0x3E, .rolAbsX 0x1234), (0x3F, .andLongX 0x561234)] = true := by decide

theorem test_decode_row_4 : reads [(0x40, .rti), (0x41, .eorDirXInd 0x34), (0x42, .wdm 0x34), (0x43, .eorStk 0x34),
    (0x44, .mvp (.banks 0x34 0x12)), (0x45, .eorDir 0x34), (0x46, .lsrDir 0x34), (0x47, .eorDirLong 0x34), (0x48,
    .pha), (0x49, .eorImm (.b1 0x34)), (0x4A, .lsrAcc), (0x4B, .phk), (0x4C, .jmpAbs 0x1234), (0x4D, .eorAbs
    0x1234), (0x4E, .lsrAbs 0x1234), (0x4F, .eorLong 0x561234)] = true := by decide

theorem test_decode_row_5 : reads [(0x50, .bvc 0x34), (0x51, .eorDirIndY 0x34), (0x52, .eorDirInd 0x34), (0x53,
    .eorStkIndY 0x34), (0x54, .mvn (.banks 0x34 0x12)), (0x55, .eorDirX 0x34), (0x56, .lsrDirX 0x34), (0x57,
    .eorDirLongY 0x34), (0x58, .cli), (0x59, .eorAbsY 0x1234), (0x5A, .phy), (0x5B, .tcd), (0x5C, .jmpLong
    0x561234), (0x5D, .eorAbsX 0x1234), (0x5E, .lsrAbsX 0x1234), (0x5F, .eorLongX 0x561234)] = true := by decide

theorem test_decode_row_6 : reads [(0x60, .rts), (0x61, .adcDirXInd 0x34), (0x62, .per 0x1234), (0x63, .adcStk
    0x34), (0x64, .stzDir 0x34), (0x65, .adcDir 0x34), (0x66, .rorDir 0x34), (0x67, .adcDirLong 0x34), (0x68, .pla),
    (0x69, .adcImm (.b1 0x34)), (0x6A, .rorAcc), (0x6B, .rtl), (0x6C, .jmpAbsInd 0x1234), (0x6D, .adcAbs 0x1234),
    (0x6E, .rorAbs 0x1234), (0x6F, .adcLong 0x561234)] = true := by decide

theorem test_decode_row_7 : reads [(0x70, .bvs 0x34), (0x71, .adcDirIndY 0x34), (0x72, .adcDirInd 0x34), (0x73,
    .adcStkIndY 0x34), (0x74, .stzDirX 0x34), (0x75, .adcDirX 0x34), (0x76, .rorDirX 0x34), (0x77, .adcDirLongY
    0x34), (0x78, .sei), (0x79, .adcAbsY 0x1234), (0x7A, .ply), (0x7B, .tdc), (0x7C, .jmpAbsXInd 0x1234), (0x7D,
    .adcAbsX 0x1234), (0x7E, .rorAbsX 0x1234), (0x7F, .adcLongX 0x561234)] = true := by decide

theorem test_decode_row_8 : reads [(0x80, .bra 0x34), (0x81, .staDirXInd 0x34), (0x82, .brl 0x1234), (0x83, .staStk
    0x34), (0x84, .styDir 0x34), (0x85, .staDir 0x34), (0x86, .stxDir 0x34), (0x87, .staDirLong 0x34), (0x88, .dey),
    (0x89, .bitImm (.b1 0x34)), (0x8A, .txa), (0x8B, .phb), (0x8C, .styAbs 0x1234), (0x8D, .staAbs 0x1234), (0x8E,
    .stxAbs 0x1234), (0x8F, .staLong 0x561234)] = true := by decide

theorem test_decode_row_9 : reads [(0x90, .bcc 0x34), (0x91, .staDirIndY 0x34), (0x92, .staDirInd 0x34), (0x93,
    .staStkIndY 0x34), (0x94, .styDirX 0x34), (0x95, .staDirX 0x34), (0x96, .stxDirY 0x34), (0x97, .staDirLongY
    0x34), (0x98, .tya), (0x99, .staAbsY 0x1234), (0x9A, .txs), (0x9B, .txy), (0x9C, .stzAbs 0x1234), (0x9D,
    .staAbsX 0x1234), (0x9E, .stzAbsX 0x1234), (0x9F, .staLongX 0x561234)] = true := by decide

theorem test_decode_row_A : reads [(0xA0, .ldyImm (.b1 0x34)), (0xA1, .ldaDirXInd 0x34), (0xA2, .ldxImm (.b1 0x34)),
    (0xA3, .ldaStk 0x34), (0xA4, .ldyDir 0x34), (0xA5, .ldaDir 0x34), (0xA6, .ldxDir 0x34), (0xA7, .ldaDirLong
    0x34), (0xA8, .tay), (0xA9, .ldaImm (.b1 0x34)), (0xAA, .tax), (0xAB, .plb), (0xAC, .ldyAbs 0x1234), (0xAD,
    .ldaAbs 0x1234), (0xAE, .ldxAbs 0x1234), (0xAF, .ldaLong 0x561234)] = true := by decide

theorem test_decode_row_B : reads [(0xB0, .bcs 0x34), (0xB1, .ldaDirIndY 0x34), (0xB2, .ldaDirInd 0x34), (0xB3,
    .ldaStkIndY 0x34), (0xB4, .ldyDirX 0x34), (0xB5, .ldaDirX 0x34), (0xB6, .ldxDirY 0x34), (0xB7, .ldaDirLongY
    0x34), (0xB8, .clv), (0xB9, .ldaAbsY 0x1234), (0xBA, .tsx), (0xBB, .tyx), (0xBC, .ldyAbsX 0x1234), (0xBD,
    .ldaAbsX 0x1234), (0xBE, .ldxAbsY 0x1234), (0xBF, .ldaLongX 0x561234)] = true := by decide

theorem test_decode_row_C : reads [(0xC0, .cpyImm (.b1 0x34)), (0xC1, .cmpDirXInd 0x34), (0xC2, .rep 0x34), (0xC3,
    .cmpStk 0x34), (0xC4, .cpyDir 0x34), (0xC5, .cmpDir 0x34), (0xC6, .decDir 0x34), (0xC7, .cmpDirLong 0x34),
    (0xC8, .iny), (0xC9, .cmpImm (.b1 0x34)), (0xCA, .dex), (0xCB, .wai), (0xCC, .cpyAbs 0x1234), (0xCD, .cmpAbs
    0x1234), (0xCE, .decAbs 0x1234), (0xCF, .cmpLong 0x561234)] = true := by decide

theorem test_decode_row_D : reads [(0xD0, .bne 0x34), (0xD1, .cmpDirIndY 0x34), (0xD2, .cmpDirInd 0x34), (0xD3,
    .cmpStkIndY 0x34), (0xD4, .pei 0x34), (0xD5, .cmpDirX 0x34), (0xD6, .decDirX 0x34), (0xD7, .cmpDirLongY 0x34),
    (0xD8, .cld), (0xD9, .cmpAbsY 0x1234), (0xDA, .phx), (0xDB, .stp), (0xDC, .jml 0x1234), (0xDD, .cmpAbsX 0x1234),
    (0xDE, .decAbsX 0x1234), (0xDF, .cmpLongX 0x561234)] = true := by decide

theorem test_decode_row_E : reads [(0xE0, .cpxImm (.b1 0x34)), (0xE1, .sbcDirXInd 0x34), (0xE2, .sep 0x34), (0xE3,
    .sbcStk 0x34), (0xE4, .cpxDir 0x34), (0xE5, .sbcDir 0x34), (0xE6, .incDir 0x34), (0xE7, .sbcDirLong 0x34),
    (0xE8, .inx), (0xE9, .sbcImm (.b1 0x34)), (0xEA, .nop), (0xEB, .xba), (0xEC, .cpxAbs 0x1234), (0xED, .sbcAbs
    0x1234), (0xEE, .incAbs 0x1234), (0xEF, .sbcLong 0x561234)] = true := by decide

theorem test_decode_row_F : reads [(0xF0, .beq 0x34), (0xF1, .sbcDirIndY 0x34), (0xF2, .sbcDirInd 0x34), (0xF3,
    .sbcStkIndY 0x34), (0xF4, .pea 0x1234), (0xF5, .sbcDirX 0x34), (0xF6, .incDirX 0x34), (0xF7, .sbcDirLongY 0x34),
    (0xF8, .sed), (0xF9, .sbcAbsY 0x1234), (0xFA, .plx), (0xFB, .xce), (0xFC, .jsrAbsXInd 0x1234), (0xFD, .sbcAbsX
    0x1234), (0xFE, .incAbsX 0x1234), (0xFF, .sbcLongX 0x561234)] = true := by decide

theorem test_decode_xfe : decode ⟨.w8, .w8, false, some 0xEB⟩ [0xEB, 0x34] = .ok (.xfe, [0x34]) := by decide

theorem test_decode_missing_operand : decode ctx8 [0xAD, 0x34] = .error (.missingOperand 2) := by decide

theorem test_decode_empty : decode ctx8 [] = .error .noOpcode := by decide

theorem test_table_word_one_byte : decodeTableWord 8 0xEA = some .nop := by decide

theorem test_table_word_absolute : decodeTableWord 24 0x12348D = some (.staAbs 0x1234) := by decide

theorem test_table_word_opcode_only : decodeTableWord 8 0xAF = some (.ldaLong 0) := by decide

/-! ## The spec's test vectors (95_test_vectors.md section 2), one step each -/

/-- The start of section 2: `emu8`, S = `$01FF`, PC = `$8000`, the rest as after reset with its open values 0. -/
def base : State := { State.reset with sp := 0x01FF, pc := 0x8000 }

/-- The state with some memory cells and the bytes of an instruction at PBR:PC. -/
def place (s : State) (cells : List (Nat × Byte)) (code : List Byte) : State :=
  let bytes := (List.range code.length).map fun k => (s.phys (s.fetchAddr k), code.getD k 0)
  { s with mem := (cells ++ bytes).foldl (fun m p => Mem.write m p.1 p.2) [] }

/-- A step from the placed state answers a next state of which `f` holds. -/
def after (s : State) (cells : List (Nat × Byte)) (code : List Byte) (f : State → Bool) : Bool :=
  match step (place s cells code) with
  | .next t => f t
  | .fault _ => false
  | .refused _ => false

/-- The writes of the step just made, in bus order. -/
def written (t : State) : List (Nat × Byte) :=
  (t.bus.filter fun e => e.kind.isWrite).map fun e => (e.addr, e.data)

theorem test_LD1 :
    after { base with a := 0x12345678 } [] [0xA9, 0x80]
      (fun t => t.a == 0x12345680 && t.p.n && t.pc == 0x8002) = true := by decide

theorem test_LD3 :
    after { base with e8 := true, e16 := false, p := { base.p with m := false } } [] [0xA9, 0x78, 0x56, 0x34, 0x80]
      (fun t => t.a == 0x80345678 && t.p.n && t.pc == 0x8005) = true := by decide

theorem test_LD4 :
    after { base with e8 := false, e16 := true, dbr := 0x12, p := { base.p with m := false } }
      [(0x12FFFF, 0x34), (0x130000, 0x12)] [0xAD, 0xFF, 0xFF]
      (fun t => t.a == 0x1234 && t.pc == 0x8003) = true := by decide

theorem test_LD6 :
    after { base with e8 := true, e16 := true, y := 0x10 }
      [(0xFF, 0x0), (0x0, 0x20), (0x100, 0x30), (0x2010, 0x5A), (0x3010, 0xA5)] [0xB1, 0xFF]
      (fun t => t.a == 0x5A && t.pc == 0x8002) = true := by decide

theorem test_LD7 :
    after { base with e8 := true, e16 := true, x := 0x20 } [(0x10, 0x77), (0x110, 0x88)] [0xB5, 0xF0]
      (fun t => t.a == 0x77) = true := by decide

theorem test_LD9 :
    after { base with e8 := false, e16 := false, x := 0xFFFFFFFF, p := { base.p with x := false } }
      [(0x1FFF, 0x99)] [0xBD, 0x00, 0x20]
      (fun t => t.a == 0x99 && t.p.n) = true := by decide

theorem test_LD10 :
    after { base with e8 := false, e16 := true, y := 0x2, dr := 0x100, p := { base.p with x := false } }
      [(0x110, 0xFE), (0x111, 0xFF), (0x112, 0x7E), (0x7F0000, 0xC3)] [0xB7, 0x10]
      (fun t => t.a == 0xC3 && t.p.n) = true := by decide

theorem test_LD11 :
    after { base with e8 := true, e16 := true, sp := 0x01FD } [(0x1FE, 0x6B)] [0xA3, 0x01]
      (fun t => t.a == 0x6B) = true := by decide

theorem test_LD12 :
    after { base with e8 := true, e16 := true, sp := 0x01F0, y := 0x3, dbr := 0x05 }
      [(0x1F2, 0x0), (0x1F3, 0x40), (0x54003, 0xE1)] [0xB3, 0x02]
      (fun t => t.a == 0xE1 && t.p.n) = true := by decide

theorem test_LD13 :
    after { base with e8 := true, e16 := true, x := 0x4, dbr := 0x02 } [(0x14, 0x0), (0x15, 0x30)] [0xA1, 0x10]
      (fun t => t.a == 0x0 && t.p.z) = true := by decide

theorem test_LD14 :
    after { base with e8 := false, e16 := false, p := { base.p with x := false } } [] [0xA2, 0x78, 0x56, 0x34, 0x12]
      (fun t => t.x == 0x12345678 && t.pc == 0x8005) = true := by decide

theorem test_LD15 :
    after { base with e8 := true, e16 := true, y := 0x5 } [(0x15, 0x80)] [0xB6, 0x10]
      (fun t => t.x == 0x80 && t.p.n) = true := by decide

theorem test_ST1 :
    after { base with e8 := true, e16 := false, a := 0x11223344, p := { base.p with m := false } }
      [] [0x8D, 0x00, 0x30]
      (fun t => t.pc == 0x8003 && written t == [(0x3000, 0x44), (0x3001, 0x33), (0x3002, 0x22), (0x3003, 0x11)]) = true := by decide

theorem test_ST2 :
    after { base with e8 := false, e16 := true, x := 0x20, a := 0x5A } [] [0x9F, 0xF0, 0xFF, 0x01]
      (fun t => t.pc == 0x8004 && written t == [(0x20010, 0x5A)]) = true := by decide

theorem test_ST3 :
    after { base with e8 := false, e16 := true, x := 0xBEEF, p := { base.p with x := false } } [] [0x86, 0x10]
      (fun t => written t == [(0x10, 0xEF), (0x11, 0xBE)]) = true := by decide

theorem test_ST4 :
    after { base with e8 := false, e16 := true, x := 0x1, p := { base.p with m := false } } [] [0x9E, 0x00, 0x20]
      (fun t => written t == [(0x2001, 0x0), (0x2002, 0x0)]) = true := by decide

theorem test_ST5 :
    after { base with e8 := false, e16 := true, dr := 0x1000, dbr := 0x7E, a := 0x77 }
      [(0x1020, 0x34), (0x1021, 0x12)] [0x92, 0x20]
      (fun t => written t == [(0x7E1234, 0x77)]) = true := by decide

theorem test_ST6 :
    after { base with e8 := true, e16 := true, x := 0x2, y := 0x9 } [] [0x94, 0xFF]
      (fun t => written t == [(0x1, 0x9)]) = true := by decide

theorem test_AR5 :
    after { base with e8 := true, e16 := false, a := 0x7FFFFFFF, p := { base.p with m := false } }
      [] [0x69, 0x01, 0x00, 0x00, 0x00]
      (fun t => t.a == 0x80000000 && t.p.n && t.p.v && !t.p.c && t.pc == 0x8005) = true := by decide

theorem test_AR9 :
    after { base with a := 0x50, p := { base.p with c := true } } [] [0xE9, 0xB0]
      (fun t => t.a == 0xA0 && t.p.n && t.p.v && !t.p.c) = true := by decide

theorem test_AD4 :
    after
      { base with
        e8 := true, e16 := false, a := 0x12345678, p := { base.p with d := true, m := false, c := true } }
      [] [0x69, 0x01, 0x00, 0x00, 0x00]
      (fun t => t.a == 0x12345680 && !t.p.c) = true := by decide

theorem test_AD6 :
    after { base with a := 0x10, p := { base.p with d := true, c := true } } [] [0xE9, 0x20]
      (fun t => t.a == 0x90 && t.p.n && !t.p.c) = true := by decide

theorem test_LG2 :
    after { base with e8 := false, e16 := true, a := 0x1, p := { base.p with m := false } } [] [0x09, 0x00, 0x80]
      (fun t => t.a == 0x8001 && t.p.n) = true := by decide

theorem test_LG3 :
    after { base with e8 := true, e16 := false, a := 0x0F0F0F0F, p := { base.p with m := false } }
      [] [0x49, 0xFF, 0xFF, 0xFF, 0xFF]
      (fun t => t.a == 0xF0F0F0F0 && t.p.n) = true := by decide

theorem test_LG4 :
    after { base with a := 0x125A } [] [0x49, 0x5A] (fun t => t.a == 0x1200 && t.p.z) = true := by decide

theorem test_BT2 :
    after { base with a := 0x1, p := { base.p with n := true, v := true } } [] [0x89, 0x01]
      (fun t => !t.p.z) = true := by decide

theorem test_BT4 :
    after { base with e8 := true, e16 := false, a := 0x1, p := { base.p with m := false } }
      [(0x2000, 0x0), (0x2001, 0x0), (0x2002, 0x0), (0x2003, 0x80)] [0x2C, 0x00, 0x20]
      (fun t => t.p.n && !t.p.v && t.p.z) = true := by decide

theorem test_CM3 :
    after { base with a := 0x80 } [] [0xC9, 0x01] (fun t => t.p.c && !t.p.n && !t.p.z) = true := by decide

theorem test_CM5 :
    after { base with e8 := false, e16 := true, x := 0x1000, p := { base.p with x := false } } [] [0xE0, 0x00, 0x10]
      (fun t => t.p.z && t.p.c) = true := by decide

theorem test_CM6 : after base [] [0xC0, 0x01] (fun t => t.p.n && !t.p.c) = true := by decide

theorem test_SH1 :
    after { base with a := 0x81 } [] [0x0A]
      (fun t => t.a == 0x02 && t.p.c && !t.p.n && t.pc == 0x8001) = true := by decide

theorem test_SH5 :
    after { base with p := { base.p with n := true } } [(0x10, 0x80)] [0x46, 0x10]
      (fun t => !t.p.n && !t.p.c && written t == [(0x10, 0x40)]) = true := by decide

theorem test_SH6 :
    after { base with a := 0x80, p := { base.p with c := true } } [] [0x2A]
      (fun t => t.a == 0x1 && t.p.c) = true := by decide

theorem test_SH7 :
    after { base with a := 0x1, p := { base.p with c := true } } [] [0x6A]
      (fun t => t.a == 0x80 && t.p.n && t.p.c) = true := by decide

theorem test_SH9 :
    after { base with e8 := false, e16 := true, p := { base.p with m := false, c := true } }
      [(0x2000, 0x0), (0x2001, 0x80)] [0x2E, 0x00, 0x20]
      (fun t => t.p.c && !t.p.z && !t.p.n && written t == [(0x2001, 0x0), (0x2000, 0x1)]) = true := by decide

theorem test_IN1 :
    after { base with a := 0xFF, p := { base.p with c := true } } [] [0x1A]
      (fun t => t.a == 0x0 && t.p.z) = true := by decide

theorem test_IN2 :
    after { base with e8 := false, e16 := true, p := { base.p with m := false } } [] [0xCE, 0x00, 0x20]
      (fun t => t.p.n && written t == [(0x2001, 0xFF), (0x2000, 0xFF)]) = true := by decide

theorem test_IN3 :
    after { base with x := 0x1 } [(0x11, 0x7F)] [0xF6, 0x10]
      (fun t => t.p.n && written t == [(0x11, 0x80)]) = true := by decide

theorem test_IN5 :
    after { base with e8 := false, e16 := true, x := 0xFFFF, p := { base.p with x := false } } [] [0xE8]
      (fun t => t.x == 0x0 && t.p.z) = true := by decide

theorem test_IN7 : after base [] [0x88] (fun t => t.y == 0xFF && t.p.n) = true := by decide

theorem test_IN8 :
    after { base with e8 := false, e16 := false, p := { base.p with x := false } } [] [0xCA]
      (fun t => t.x == 0xFFFFFFFF && t.p.n) = true := by decide

theorem test_IN9 :
    after { base with e8 := false, e16 := true, y := 0xABCDFFFF, p := { base.p with x := false } } [] [0xC8]
      (fun t => t.y == 0xABCD0000 && t.p.z) = true := by decide

theorem test_TB1 :
    after { base with a := 0x0F } [(0x20, 0xF0)] [0x04, 0x20]
      (fun t => t.p.z && written t == [(0x20, 0xFF)]) = true := by decide

theorem test_TB4 :
    after { base with a := 0xF0 } [(0x2000, 0xF)] [0x1C, 0x00, 0x20]
      (fun t => t.p.z && written t == [(0x2000, 0xF)]) = true := by decide

theorem test_TR2 :
    after { base with e8 := false, e16 := false, a := 0x89ABCDEF, p := { base.p with x := false } } [] [0xAA]
      (fun t => t.x == 0x89ABCDEF && t.p.n) = true := by decide

theorem test_TR4 :
    after { base with e8 := false, e16 := true, a := 0x1234, x := 0xAB00, p := { base.p with x := false } } [] [0x8A]
      (fun t => t.a == 0x1200 && t.p.z && !t.p.n) = true := by decide

theorem test_TR5 :
    after { base with e8 := true, e16 := true, a := 0x1200, y := 0x55 } [] [0xA8]
      (fun t => t.y == 0x0 && t.p.z) = true := by decide

theorem test_TR6 :
    after { base with e8 := false, e16 := false, x := 0x80000000, p := { base.p with x := false } } [] [0x9B]
      (fun t => t.y == 0x80000000 && t.p.n) = true := by decide

theorem test_TR7 :
    after { base with e8 := true, e16 := true, a := 0x1FFF, sp := 0x0180 } [] [0x1B]
      (fun t => t.sp == 0x01FF) = true := by decide

theorem test_TR10 :
    after { base with e8 := false, e16 := false, x := 0x12345678, p := { base.p with x := false } } [] [0x9A]
      (fun t => t.sp == 0x5678) = true := by decide

theorem test_TR12 :
    after { base with e8 := false, e16 := false, sp := 0x81FF, x := 0xFFFFFFFF, p := { base.p with x := false } }
      [] [0xBA]
      (fun t => t.x == 0x81FF && !t.p.n && !t.p.z) = true := by decide

theorem test_TR13 :
    after { base with e8 := true, e16 := true, sp := 0x01FF, a := 0xAAAA5555 } [] [0x3B]
      (fun t => t.a == 0xAAAA01FF) = true := by decide

theorem test_TR15 : after { base with a := 0x8000 } [] [0x5B] (fun t => t.dr == 0x8000 && t.p.n) = true := by decide

theorem test_TR16 :
    after { base with a := 0x12345678 } [] [0x7B] (fun t => t.a == 0x12340000 && t.p.z) = true := by decide

theorem test_TR18 :
    after { base with a := 0xAAAA0080 } [] [0xEB] (fun t => t.a == 0xAAAA8000 && t.p.z && !t.p.n) = true := by decide

theorem test_PU1 :
    after { base with e8 := false, e16 := true, a := 0x1234, p := { base.p with m := false } } [] [0x48]
      (fun t => t.sp == 0x01FD && written t == [(0x1FF, 0x12), (0x1FE, 0x34)]) = true := by decide

theorem test_PU2 :
    after { base with e8 := true, e16 := true, sp := 0x0100, a := 0x77 } [] [0x48]
      (fun t => t.sp == 0x01FF && written t == [(0x100, 0x77)]) = true := by decide

theorem test_PU3 :
    after { base with e8 := false, e16 := false, x := 0x11223344, sp := 0x0FFF, p := { base.p with x := false } }
      [] [0xDA]
      (fun t => t.sp == 0x0FFB && written t == [(0xFFF, 0x11), (0xFFE, 0x22), (0xFFD, 0x33), (0xFFC, 0x44)]) = true := by decide

theorem test_PU4 :
    after { base with e8 := true, e16 := true, p := { base.p with n := true, c := true } } [] [0x08]
      (fun t => t.sp == 0x01FE && written t == [(0x1FF, 0xB5)]) = true := by decide

theorem test_PU6 :
    after { base with e8 := true, e16 := true, sp := 0x0100, dr := 0x1234 } [] [0x0B]
      (fun t => t.sp == 0x01FE && written t == [(0x100, 0x12), (0xFF, 0x34)]) = true := by decide

theorem test_PL1 :
    after { base with e8 := false, e16 := true, sp := 0x01FD, p := { base.p with m := false } }
      [(0x1FE, 0x34), (0x1FF, 0x12)] [0x68]
      (fun t => t.a == 0x1234 && t.sp == 0x01FF) = true := by decide

theorem test_PL2 :
    after { base with e8 := true, e16 := true, sp := 0x01FF } [(0x100, 0x80)] [0x68]
      (fun t => t.a == 0x80 && t.p.n && t.sp == 0x0100) = true := by decide

theorem test_PL4 :
    after { base with e8 := false, e16 := true, y := 0xFFFF, sp := 0x01FD, p := { base.p with x := false } } [] [0x7A]
      (fun t => t.y == 0x0 && t.p.z && t.sp == 0x01FF) = true := by decide

theorem test_PL7 :
    after
      { base with
        e8 := false, e16 := true, x := 0x1234, y := 0xABCD, sp := 0x01FE, p := { base.p with x := false } }
      [(0x1FF, 0x10)] [0x28]
      (fun t => !t.p.m && t.p.x && !t.p.i && t.x == 0x34 && t.y == 0xCD && t.sp == 0x01FF) = true := by decide

theorem test_PL8 :
    after { base with sp := 0x01FE } [(0x1FF, 0x7F)] [0xAB]
      (fun t => t.dbr == 0x7F && t.sp == 0x01FF) = true := by decide

theorem test_PL9 :
    after { base with e8 := true, e16 := true, sp := 0x01FF } [(0x200, 0x34), (0x201, 0x12)] [0x2B]
      (fun t => t.dr == 0x1234 && t.sp == 0x0101) = true := by decide

theorem test_PE1 :
    after base [] [0xF4, 0x34, 0x12]
      (fun t => t.sp == 0x01FD && t.pc == 0x8003 && written t == [(0x1FF, 0x12), (0x1FE, 0x34)]) = true := by decide

theorem test_PE2 :
    after { base with e8 := true, e16 := true } [(0xFF, 0x34), (0x100, 0x12)] [0xD4, 0xFF]
      (fun t => t.sp == 0x01FD && written t == [(0x1FF, 0x12), (0x1FE, 0x34)]) = true := by decide

theorem test_PE3 :
    after base [] [0x62, 0xFD, 0xFF]
      (fun t => t.sp == 0x01FD && t.pc == 0x8003 && written t == [(0x1FF, 0x80), (0x1FE, 0x0)]) = true := by decide

theorem test_PE5 :
    after { base with e8 := true, e16 := true, sp := 0x0100 } [] [0xF4, 0xCD, 0xAB]
      (fun t => t.sp == 0x01FE && written t == [(0x100, 0xAB), (0xFF, 0xCD)]) = true := by decide

theorem test_CF1 : after base [] [0xD0, 0xFC] (fun t => t.pc == 0x7FFE) = true := by decide

theorem test_CF4 :
    after { base with pc := 0xFFFE, pbr := 0x05, p := { base.p with z := true } } [] [0xF0, 0x00]
      (fun t => t.pc == 0x0) = true := by decide

theorem test_CF5 : after base [] [0x90, 0x7F] (fun t => t.pc == 0x8081) = true := by decide

theorem test_CF6 :
    after { base with p := { base.p with n := true } } [] [0x30, 0x80] (fun t => t.pc == 0x7F82) = true := by decide

theorem test_CF7 : after base [] [0x70, 0x10] (fun t => t.pc == 0x8002) = true := by decide

theorem test_CF8 :
    after { base with pc := 0x9000 } [] [0x82, 0x00, 0x80] (fun t => t.pc == 0x1003) = true := by decide

theorem test_CF10 :
    after { base with pbr := 0x02 } [] [0x4C, 0x00, 0x90] (fun t => t.pc == 0x9000) = true := by decide

theorem test_CF11 :
    after base [] [0x5C, 0x56, 0x34, 0x12] (fun t => t.pbr == 0x12 && t.pc == 0x3456) = true := by decide

theorem test_CF13 :
    after base [(0xFFFF, 0x34), (0x0, 0x12)] [0x6C, 0xFF, 0xFF] (fun t => t.pc == 0x1234) = true := by decide

theorem test_CF15 :
    after { base with e8 := false, e16 := true, pbr := 0x01, x := 0x2, p := { base.p with x := false } }
      [(0x10001, 0xCD), (0x10002, 0xAB)] [0x7C, 0xFF, 0xFF]
      (fun t => t.pc == 0xABCD) = true := by decide

theorem test_CF16 :
    after base [(0x200, 0x56), (0x201, 0x34), (0x202, 0x12)] [0xDC, 0x00, 0x02]
      (fun t => t.pbr == 0x12 && t.pc == 0x3456) = true := by decide

theorem test_CF18 :
    after { base with e8 := true, e16 := true, sp := 0x0100 } [] [0x20, 0x00, 0x90]
      (fun t => t.sp == 0x01FE && t.pc == 0x9000 && written t == [(0x100, 0x80), (0x1FF, 0x2)]) = true := by decide

theorem test_CF19 :
    after { base with x := 0x4 } [(0x9004, 0x0), (0x9005, 0xA0)] [0xFC, 0x00, 0x90]
      (fun t => t.pc == 0xA000 && t.sp == 0x01FD && written t == [(0x1FF, 0x80), (0x1FE, 0x2)]) = true := by decide

theorem test_CF21 :
    after { base with e8 := true, e16 := true, sp := 0x0101 } [] [0x22, 0x56, 0x34, 0x12]
      (fun t => t.sp == 0x01FE && t.pbr == 0x12 && t.pc == 0x3456 &&
        written t == [(0x101, 0x0), (0x100, 0x80), (0xFF, 0x3)]) = true := by decide

theorem test_CF22 :
    after { base with sp := 0x01FD } [(0x1FE, 0x2), (0x1FF, 0x80)] [0x60]
      (fun t => t.pc == 0x8003 && t.sp == 0x01FF) = true := by decide

theorem test_CF25 :
    after { base with e8 := true, e16 := true, sp := 0x01FE } [(0x1FF, 0x3), (0x200, 0x80), (0x201, 0x1)] [0x6B]
      (fun t => t.pc == 0x8004 && t.pbr == 0x01 && t.sp == 0x0101) = true := by decide

theorem test_SM1 :
    after { base with e8 := false, e16 := true } [] [0xC2, 0x30]
      (fun t => !t.p.m && !t.p.x && t.pc == 0x8002) = true := by decide

theorem test_SM3 :
    after { base with e8 := false, e16 := false, x := 0x12345678, y := 0x9ABCDEF0, p := { base.p with x := false } }
      [] [0xE2, 0x10]
      (fun t => t.p.x && t.x == 0x78 && t.y == 0xF0) = true := by decide

theorem test_SM12 : after base [] [0x42, 0xFF] (fun t => t.pc == 0x8002) = true := by decide

theorem test_BM1a :
    after
      { base with
        e8 := false, e16 := true, x := 0x1000, y := 0x2000, a := 0x2, p := { base.p with m := false, x := false } }
      [(0x11000, 0xAA), (0x11001, 0xBB), (0x11002, 0xCC)] [0x54, 0x02, 0x01]
      (fun t => t.dbr == 0x02 && t.a == 0x1 && t.x == 0x1001 && t.y == 0x2001 && t.pc == 0x8000 &&
        written t == [(0x22000, 0xAA)]) = true := by decide

theorem test_BM3 :
    after
      { base with
        e8 := false, e16 := false, x := 0x123456, y := 0x654321, a := 0xABCD0000, dbr := 0x7E,
        p := { base.p with x := false } }
      [(0x123456, 0x5A)] [0x54]
      (fun t => t.x == 0x123457 && t.y == 0x654322 && t.a == 0xABCDFFFF && t.pc == 0x8001 &&
        written t == [(0x654321, 0x5A)]) = true := by decide

theorem test_SY1 :
    after { base with e8 := false, e16 := true, pbr := 0x01, p := { base.p with i := false } }
      [(0xFFE6, 0x0), (0xFFE7, 0x90)] [0x00, 0xEA]
      (fun t => t.sp == 0x01FB && t.pbr == 0x0 && t.pc == 0x9000 && t.p.i && !t.p.d &&
        written t == [(0x1FF, 0x1), (0x1FE, 0x80), (0x1FD, 0x2), (0x1FC, 0x30)]) = true := by decide

theorem test_SY3 :
    after
      { base with
        e8 := true, e16 := false, pbr := 0x02, dbr := 0x12, sp := 0x1FFF,
        p := { base.p with m := false, x := false, i := false } }
      [(0xFFD6, 0x0), (0xFFD7, 0x90)] [0x00, 0xEA]
      (fun t => t.sp == 0x1FFB && t.pbr == 0x0 && t.p.i && t.pc == 0x9000 &&
        written t == [(0x1FFF, 0x2), (0x1FFE, 0x80), (0x1FFD, 0x2), (0x1FFC, 0x0)]) = true := by decide

theorem test_SY5 :
    after { base with e8 := false, e16 := true, pbr := 0x01, p := { base.p with i := true, n := true } }
      [(0xFFE4, 0x0), (0xFFE5, 0xC0)] [0x02, 0xFF]
      (fun t => t.sp == 0x01FB && t.pbr == 0x0 && t.pc == 0xC000 &&
        written t == [(0x1FF, 0x1), (0x1FE, 0x80), (0x1FD, 0x2), (0x1FC, 0xB4)]) = true := by decide

theorem test_SY7 :
    after { base with e8 := true, e16 := true, sp := 0x01FC, pbr := 0x05 }
      [(0x1FD, 0xC3), (0x1FE, 0x2), (0x1FF, 0x10)] [0x40]
      (fun t => t.p.n && t.p.v && t.p.z && t.p.c && !t.p.i && !t.p.d && t.pc == 0x1002 && t.sp == 0x01FF) = true := by decide

theorem test_SY8 :
    after { base with e8 := true, e16 := false, x := 0x78, sp := 0x1FFB }
      [(0x1FFC, 0x0), (0x1FFD, 0x2), (0x1FFE, 0x80), (0x1FFF, 0x2)] [0x40]
      (fun t => !t.p.m && !t.p.x && !t.p.i && t.pc == 0x8002 && t.pbr == 0x02 && t.sp == 0x1FFF) = true := by decide

theorem test_SY11 : after base [] [0xEA] (fun t => t.pc == 0x8001) = true := by decide

theorem test_IR1 :
    after
      { base with
        e8 := true, e16 := true, dbr := 0x12, p := { base.p with i := false, c := true },
        inputs := [{ Inputs.quiet with irq := true }] }
      [(0xFFFE, 0x0), (0xFFFF, 0xA0)] [0xEA]
      (fun t => t.sp == 0x01FC && t.dbr == 0x0 && t.p.i && t.pc == 0xA000 &&
        written t == [(0x1FF, 0x80), (0x1FE, 0x0), (0x1FD, 0x21)]) = true := by decide

theorem test_IR3 :
    after
      { base with
        e8 := false, e16 := true, pbr := 0x03, dbr := 0x12,
        p := { base.p with i := true, m := false, x := false, d := true },
        inputs := [{ Inputs.quiet with nmiEdge := true }] }
      [(0xFFEA, 0x0), (0xFFEB, 0xB0)] [0xEA]
      (fun t => t.sp == 0x01FB && t.pbr == 0x0 && !t.p.d && t.p.i && t.pc == 0xB000 &&
        written t == [(0x1FF, 0x3), (0x1FE, 0x80), (0x1FD, 0x0), (0x1FC, 0xC)]) = true := by decide


/-! ## The assembler examples (R119, R121, R122, R124) -/

/-- The bytes of a line assembled at `$8000`. -/
def asm (c : DecodeCtx) (line : List Char) : Option (List Byte) :=
  (assembleLine [] c 0x8000 line).map fun l => encode c l.instr

/-- 16-bit widths, outside native mode. -/
def ctx16 : DecodeCtx := ⟨.w16, .w16, false, none⟩

theorem test_asm_absolute : asm ctx8 [' ', 'L', 'D', 'A', ' ', '$', '0', '2', '0', '3'] = some [0xAD, 0x03, 0x02] := by
  decide

theorem test_asm_forced_absolute :
    asm ctx8 [' ', 'l', 'd', 'a', ' ', '|', '$', '0', '1', '0', '2', '0', '3'] = some [0xAD, 0x03, 0x02] := by decide

theorem test_asm_immediate : asm ctx16 [' ', 'L', 'D', 'A', ' ', '#', '$', '0', '1', '0', '2', '0', '3', '0', '4'] =
    some [0xA9, 0x04, 0x03] := by decide

theorem test_asm_immediate_selected :
    asm ctx16 [' ', 'L', 'D', 'A', ' ', '#', '>', '$', '0', '1', '0', '2', '0', '3', '0', '4'] =
      some [0xA9, 0x03, 0x02] := by decide

theorem test_asm_block_move : asm ctx8 ['M', ' ', 'M', 'V', 'N', ' ', '$', '1', '2', ',', '$', '3', '4', ' ', 'C'] =
    some [0x54, 0x34, 0x12] := by decide

theorem test_asm_long_call : asm ctx8 [' ', 'J', 'S', 'R', ' ', '>', '$', '1', '2'] = some [0x22, 0x12, 0x00, 0x00] ∧
    asm ctx8 [' ', 'J', 'M', 'P', ' ', '[', '$', '2', '0', '0', ']'] = some [0xDC, 0x00, 0x02] := by decide

/-- The operands of vectors PE1, PE2, PE3 and SY4, and PEA with an immediate (R259). -/
theorem test_asm_push_effective : asm ctx8 [' ', 'P', 'E', 'A', ' ', '$', '1', '2', '3', '4'] = some [0xF4, 0x34, 0x12] ∧
    asm ctx8 [' ', 'P', 'E', 'A', ' ', '#', '$', '1', '2', '3', '4'] = some [0xF4, 0x34, 0x12] ∧
    asm ctx8 [' ', 'P', 'E', 'I', ' ', '(', '$', 'F', 'F', ')'] = some [0xD4, 0xFF] ∧
    asm ctx8 [' ', 'P', 'E', 'R', ' ', '$', '8', '0', '0', '0'] = some [0x62, 0xFD, 0xFF] := by decide

theorem test_asm_signature : asm ctx8 [' ', 'C', 'O', 'P', ' ', '#', '$', '1', '0'] = some [0x02, 0x10] := by decide

/-- JML is equivalent to JMP (R121), and `$DC` is its form for `[a]` (95_test_vectors.md section 1.4). -/
theorem test_asm_jump_long : asm ctx8 [' ', 'J', 'M', 'L', ' ', '[', '$', '2', '0', '0', ']'] = some [0xDC, 0x00, 0x02] ∧
    asm ctx8 [' ', 'J', 'M', 'L', ' ', '(', '$', '2', '0', '0', ')'] = some [0xDC, 0x00, 0x02] := by decide

/-- JML and JSL force three bytes on a label not yet known (R121). -/
theorem test_asm_forced_long :
    assemble ctx8 0x8000 .jml (.addr ⟨0x123456, false, none⟩) = some (.jmpLong 0x123456) ∧
      assemble ctx8 0x8000 .jsl (.addr ⟨0x123456, false, none⟩) = some (.jsl 0x123456) := by decide

theorem test_asm_alias : asm ctx8 [' ', 'T', 'A', 'S'] = some [0x1B] ∧ asm ctx8 [' ', 'D', 'E', 'A'] = some [0x3A] := by
  decide

/-! ## A witness for the hypotheses of every statement that has some -/

/-- Whether an outcome is a next state of which `f` holds. -/
def nextIs (o : Out) (f : State → Bool) : Bool :=
  match o with
  | .next t => f t
  | .fault _ => false
  | .refused _ => false

theorem next_such {o : Out} {f : State → Bool} (h : nextIs o f = true) : ∃ t, o = .next t ∧ f t = true := by
  cases o with
  | next t => exact ⟨t, rfl, h⟩
  | fault x => exact absurd h Bool.false_ne_true
  | refused r => exact absurd h Bool.false_ne_true

/-- `emu16` with 8-bit widths. -/
def emu16State : State := { base with e8 := false }

/-- Native mode with 32-bit widths. -/
def nativeState : State := { base with e16 := false, p := { base.p with m := false, x := false } }

/-- `LDA #$80` at PBR:PC. -/
def loadState : State := place base [] [0xA9, 0x80]

/-- A state about to see the given inputs at the coming boundary. -/
def seeing (inp : Inputs) (s : State) : State := { s with inputs := [inp] }

theorem witness_DecodeEncodeRoundTrip :
    (Instr.ldaImm (.b4 0x80000000)).wf ctx32 = true ∧ (Instr.ldaImm (.b4 0x80000000)).shadowed ctx32 = false ∧
      Instr.xfe.wf ⟨.w8, .w8, false, some 0x42⟩ = true ∧ Instr.xfe.shadowed ⟨.w8, .w8, false, some 0x42⟩ = false := by
  decide

theorem witness_DecodeAcceptsAndReencodes :
    4 ≤ [(0 : Byte), 0, 0, 0].length ∧ decode ctx8 [0xAF, 0xFF, 0xFF, 0xFF] = .ok (.ldaLong 0xFFFFFF, []) := by decide

theorem witness_StepRunsDecodedInstruction : calm loadState ∧ noneLatched loadState ∧ loadState.run = .running ∧
    decode loadState.ctx [loadState.fetch 0, loadState.fetch 1, loadState.fetch 2, loadState.fetch 3,
      loadState.fetch 4] = .ok (.ldaImm (.b1 0x80), [0, 0, 0]) := by
  unfold calm noneLatched
  decide

theorem witness_StepKeepsInvariant : ∃ t, loadState.Inv ∧ step loadState = .next t :=
  have ⟨t, h, _⟩ := next_such (o := step loadState) (f := fun t => t.a == 0x80) (by decide)
  ⟨t, by decide, h⟩

/-- The one stop of the machine is reached: ABORT- over an NMI sequence under the precise model (R380). -/
theorem witness_StepAnswersNextState : step (seeing { Inputs.quiet with nmiEdge := true, abort := true }
    { base with cfg := { Config.default with abortModel := .precise } }) = .refused .abortedSequence := rfl

theorem witness_ProgramBankWriters : ∃ t, exec (.jmpLong 0x123456) base = .next t ∧ t.pbr ≠ base.pbr :=
  have ⟨t, h, g⟩ := next_such (o := exec (.jmpLong 0x123456) base) (f := fun t => t.pbr == 0x12) (by decide)
  ⟨t, h, by rw [beq_iff_eq.1 g]; decide⟩

theorem witness_ModeAndBankWriters :
    nextIs (exec .xfe base) (fun t => t.e16 != base.e16) = true ∧
      nextIs (exec .xce base) (fun t => t.e8 != base.e8) = true ∧
      nextIs (exec .tcd { base with a := 0x1FFFF }) (fun t => t.dr != base.dr) = true ∧
      nextIs (exec (.mvn (.banks 0xFF 0)) base) (fun t => t.dbr != base.dbr) = true ∧
      nextIs (exec .stp base) (fun t => t.run != base.run) = true := by decide

theorem witness_NoInstructionTouchesTheEnvironment :
    (∃ t, exec .nop base = .next t) ∧ ∃ t, step loadState = .next t :=
  have ⟨t, h, _⟩ := next_such (o := exec .nop base) (f := fun _ => true) (by decide)
  have ⟨u, g, _⟩ := next_such (o := step loadState) (f := fun _ => true) (by decide)
  ⟨⟨t, h⟩, ⟨u, g⟩⟩

theorem witness_BusRecordReplaysMemory : ∃ t, exec (.staDir 0xFF) { base with a := 0x80 } = .next t ∧ t.bus.length = 1 :=
  have ⟨t, h, g⟩ := next_such (o := exec (.staDir 0xFF) { base with a := 0x80 })
    (f := fun t => decide (t.bus.length = 1)) (by decide)
  ⟨t, h, of_decide_eq_true g⟩

theorem witness_OrderOnTheBus : 4 ≤ 4 ∧ 3 < 4 ∧
    ((nativeState.setA 0x11223344).memWrite ⟨0xFFFFFF, .lin⟩ 4 0x11223344).bus.length = 4 := by decide

theorem witness_ByteAddressOfAccess : 3 < 4 ∧ nativeState.byteAddr ⟨0xFFFFFFFF, .lin⟩ 3 = 2 ∧
    base.byteAddr ⟨0xFFFFFF, .lin⟩ 3 = 2 ∧ base.byteAddr ⟨0xFFFF, .bank0⟩ 3 = 2 ∧
    base.byteAddr ⟨0x12FF, .page⟩ 3 = 0x1202 ∧ { base with pbr := 0xFF }.byteAddr ⟨0xFFFF, .pbank⟩ 3 = 0xFF0002 := by
  decide

theorem witness_MemoryIsLittleEndian : 4 ≤ 4 ∧
    ((nativeState.memWrite ⟨0xFFFFFF, .lin⟩ 4 0x80000001).memRead ⟨0xFFFFFF, .lin⟩ 4) = 0x80000001 := by decide

theorem witness_OperandValues : (Imm.b1 0xFF).width = .w8 ∧ (Imm.b2 0xFFFF).width = .w16 ∧
    (Imm.b4 0xFFFFFFFF).width = .w32 := by decide

theorem witness_DirectAddresses :
    ¬({ base with dr := 0x00FF }.emu8 = true ∧ { base with dr := 0x00FF }.dr.toNat % 256 = 0) ∧
      ¬(emu16State.emu8 = true ∧ emu16State.dr.toNat % 256 = 0) ∧
      ({ base with dr := 0xFF00 }.emu8 = true ∧ { base with dr := 0xFF00 }.dr.toNat % 256 = 0) := by decide

theorem witness_LoadAccumulatorResult : ldaForm (.imm (.b1 0x80)) = some (.ldaImm (.b1 0x80)) ∧
    ldaForm (.mem (.longX 0xFFFFFF)) = some (.ldaLongX 0xFFFFFF) := by decide

theorem witness_LoadIndexResult : ldxForm (.mem (.absY 0xFFFF)) = some (.ldxAbsY 0xFFFF) ∧
    ldyForm (.mem (.dirX 0xFF)) = some (.ldyDirX 0xFF) := by decide

theorem witness_StoreResult : staForm (.stkIndY 0xFF) = some (.staStkIndY 0xFF) ∧
    stxForm (.dirY 0xFF) = some (.stxDirY 0xFF) ∧ styForm (.dirX 0) = some (.styDirX 0) ∧
    stzForm (.absX 0xFFFF) = some (.stzAbsX 0xFFFF) := by decide

theorem witness_BinaryAddSubtract : base.p.d = false ∧ adcForm (.imm (.b1 0xFF)) = some (.adcImm (.b1 0xFF)) ∧
    sbcForm (.mem (.dirLongY 0)) = some (.sbcDirLongY 0) := by decide

/-- Decimal mode with A at the largest packed value. -/
def decimalState : State := { base with a := 0x99, p := { base.p with d := true } }

theorem witness_DecimalAddSubtract : decimalState.p.d = true ∧
    allDecimal (decimalState.mw.bits / 4) decimalState.amNat ∧
    allDecimal (decimalState.mw.bits / 4) ((Operand.imm (.b1 0x00)).value decimalState.mw decimalState).toNat ∧
    adcForm (.imm (.b1 0x00)) = some (.adcImm (.b1 0x00)) ∧ sbcForm (.imm (.b1 0x00)) = some (.sbcImm (.b1 0x00)) := by
  unfold allDecimal
  decide

theorem witness_DecimalOperandWithLargeDigit : decimalState.p.d = true ∧
    ¬(allDecimal (decimalState.mw.bits / 4) decimalState.amNat ∧
      allDecimal (decimalState.mw.bits / 4) ((Operand.imm (.b1 0xA0)).value decimalState.mw decimalState).toNat) ∧
    (adcForm (.imm (.b1 0xA0)) = some (.adcImm (.b1 0xA0)) ∨ sbcForm (.imm (.b1 0xA0)) = some (.adcImm (.b1 0xA0))) := by
  unfold allDecimal
  decide

theorem witness_LogicResult : andForm (.imm (.b1 0x0F)) = some (.andImm (.b1 0x0F)) ∧
    oraForm (.mem (.abs 0xFFFF)) = some (.oraAbs 0xFFFF) ∧ eorForm (.mem (.stk 0xFF)) = some (.eorStk 0xFF) := by decide

theorem witness_CompareResult : cmpForm (.imm (.b1 0x80)) = some (.cmpImm (.b1 0x80)) ∧
    cpxForm (.mem (.dir 0xFF)) = some (.cpxDir 0xFF) ∧ cpyForm (.mem (.abs 0)) = some (.cpyAbs 0) := by decide

theorem witness_BitTestResult : bitForm (.dirX 0xFF) = some (.bitDirX 0xFF) := by decide

theorem witness_ShiftMemoryResult : ShiftOp.asl.onMem (.dir 0xFF) = some (.aslDir 0xFF) ∧
    ShiftOp.lsr.onMem (.absX 0xFFFF) = some (.lsrAbsX 0xFFFF) ∧ ShiftOp.rol.onMem (.abs 0) = some (.rolAbs 0) ∧
    ShiftOp.ror.onMem (.dirX 0) = some (.rorDirX 0) ∧ ShiftOp.inc.onMem (.dir 0) = some (.incDir 0) ∧
    ShiftOp.dec.onMem (.abs 0xFFFF) = some (.decAbs 0xFFFF) := by decide

theorem witness_TestAndSetResult : tsbForm (.dir 0xFF) = some (.tsbDir 0xFF) ∧
    trbForm (.abs 0xFFFF) = some (.trbAbs 0xFFFF) := by decide

theorem witness_IndexCountResult : (Instr.dex = .dex ∧ 255 = 2 ^ base.xw.bits - 1) ∧
    (Instr.dey = .dey ∧ 4294967295 = 2 ^ nativeState.xw.bits - 1) := by decide

theorem witness_RegisterTransferResult : (Instr.tsx = .tsx ∧ 0x1FF = base.sp.toNat) ∧
    (Instr.tay = .tay ∧ 0 = base.a.toNat) ∧ (Instr.tya = .tya ∧ 0 = base.y.toNat) := by decide

theorem witness_TransferToStackPointerResult : Instr.tcs = .tcs ∧ 0xFFFFFFFF = { base with a := 0xFFFFFFFF }.a.toNat := by
  decide

theorem witness_PushThenPull : { base with sp := 0x0100 }.Inv ∧ nativeState.Inv ∧ 4 ≤ 4 := by decide

theorem witness_PushRegisterResult : (Instr.pha = .pha ∧ base.a = 0 ∧ 1 = base.mw.bytes) ∧
    (Instr.phy = .phy ∧ nativeState.y = 0 ∧ 4 = nativeState.xw.bytes) := by decide

theorem witness_PushByteResult : (Instr.phb = .phb ∧ base.dbr = 0) ∧ (Instr.phk = .phk ∧ base.pbr = 0) ∧
    (Instr.php = .php ∧ base.statusByte true = 0x34) := by decide

theorem witness_PushWordResult : (Instr.phd = .phd ∧ halfHi { base with dr := 0x80FF }.dr = 0x80) ∧
    (Instr.pea 0xFFFF = .pea 0xFFFF ∧ halfLo (0xFFFF : Half) = 0xFF) ∧
    (Instr.pei 0xFF = .pei 0xFF ∧ Mem.read { base with dr := 0xFF01 }.mem ((0xFF01 + 0xFF) % 65536) = 0) ∧
    (Instr.per 0x8000 = .per 0x8000 ∧ halfHi (base.pc + 3 + 0x8000) = 0) := by decide

theorem witness_ShortBranchResult : (Instr.bcc 0x80, (0x90 : Byte), !base.p.c) ∈
      [(.bcc 0x80, 0x90, !base.p.c), (.bcs 0x80, 0xB0, base.p.c), (.beq 0x80, 0xF0, base.p.z),
        (.bne 0x80, 0xD0, !base.p.z), (.bmi 0x80, 0x30, base.p.n), (.bpl 0x80, 0x10, !base.p.n),
        (.bvc 0x80, 0x50, !base.p.v), (.bvs 0x80, 0x70, base.p.v), (.bra 0x80, 0x80, true)] := List.mem_cons_self

/-- `JSL $563412` and `JSR ($3412,X)` can stand on these bytes. -/
def callState : State := place base [] [0x22, 0x12, 0x34, 0x56]

theorem witness_SubroutineCallResult : callState.fetch 2 = halfHi 0x3412 ∧ callState.fetch 3 = longBank 0x563412 := by
  decide

theorem witness_CallThenReturn : (∃ t, base.Inv ∧ exec (.jsrAbs 0xFFFF) base = .next t) ∧
    ∃ t, emu16State.Inv ∧ emu16State.emu8 = false ∧ exec (.jsl 0xFFFFFF) emu16State = .next t :=
  have ⟨t, h, _⟩ := next_such (o := exec (.jsrAbs 0xFFFF) base) (f := fun _ => true) (by decide)
  have ⟨u, g, _⟩ := next_such (o := exec (.jsl 0xFFFFFF) emu16State) (f := fun _ => true) (by decide)
  ⟨⟨t, by decide, h⟩, ⟨u, by decide, by decide, g⟩⟩

theorem witness_FlagInstructionResult : (Instr.clv, (0xB8 : Byte), { base.p with v := false }) ∈
      [(.clc, 0x18, { base.p with c := false }), (.sec, 0x38, { base.p with c := true }),
        (.cld, 0xD8, { base.p with d := false }), (.sed, 0xF8, { base.p with d := true }),
        (.cli, 0x58, { base.p with i := false }), (.sei, 0x78, { base.p with i := true }),
        (.clv, 0xB8, { base.p with v := false })] := by decide

theorem witness_StatusMaskResult : ∃ f : Nat → Bool → Bool,
    (Instr.rep 0xFF = .rep 0xFF ∧ f = fun b old => old && !(0xFF : Byte).getLsbD b) ∧ f 7 true = false :=
  ⟨_, ⟨rfl, rfl⟩, by decide⟩

theorem witness_ModeExchangeResult :
    let s : State := { emu16State with p := { base.p with x := false } }
    s.e16 = true ∧ s.p.v = false ∧ s.p.x = false ∧ ({ Config.default with idxHigh := .zero } : Config).idxHigh = .zero := by
  decide

theorem witness_BlockMoveStepResult : (Instr.mvn (.banks 0xFF 0) = .mvn (.banks 0xFF 0) ∧ 1 = 1) ∧
    (Instr.mvp .native = .mvp .native ∧ 4294967295 = 2 ^ nativeState.xw.bits - 1) ∧ base.a.toNat % 65536 = 0 := by decide

theorem witness_InterruptThenReturn : base.Inv ∧ emu16State.Inv ∧ nativeState.Inv := by decide

/-- A state in which IRQ- is enabled. -/
def enabledState : State := { base with p := { base.p with i := false } }

theorem witness_HardwareInterruptStep :
    (let s : State := { base with abortPending := true };
      (currentInputs s).res = .inactive ∧ (currentInputs s).abort = false ∧ s.run ≠ .stopped ∧ s.abortPending = true) ∧
    (let s := seeing { Inputs.quiet with nmiEdge := true } { base with run := .waiting };
      (currentInputs s).res = .inactive ∧ (currentInputs s).abort = false ∧ s.run ≠ .stopped ∧
        s.abortPending = false ∧ (s.nmiPending || (currentInputs s).nmiEdge) = true) ∧
    (let s := seeing { Inputs.quiet with irq := true } enabledState;
      (currentInputs s).res = .inactive ∧ (currentInputs s).abort = false ∧ s.run ≠ .stopped ∧
        s.abortPending = false ∧ (s.nmiPending || (currentInputs s).nmiEdge) = false ∧ (currentInputs s).irq = true ∧
        s.p.i = false) := by decide

/-- A waiting processor. -/
def waitingState : State := { loadState with run := .waiting }

theorem witness_StoppedAndWaitingSteps :
    (let s : State := { base with run := .stopped }; (currentInputs s).res = .inactive ∧ s.run = .stopped) ∧
    ((currentInputs waitingState).res = .inactive ∧ waitingState.run = .waiting ∧ noneLatched waitingState ∧
      (currentInputs waitingState).nmiEdge = false ∧ (currentInputs waitingState).irq = false) ∧
    (let s := seeing { Inputs.quiet with irq := true } waitingState;
      (currentInputs s).res = .inactive ∧ s.run = .waiting ∧ noneLatched s ∧ calm s ∧ (currentInputs s).irq = true ∧
        decode s.ctx [s.fetch 0, s.fetch 1, s.fetch 2, s.fetch 3, s.fetch 4] = .ok (.ldaImm (.b1 0x80), [0, 0, 0])) := by
  unfold calm noneLatched
  decide

/-- A constant for the part that reset does not initialise, at the ends of its ranges. -/
def resetConst : Uninit where
  a := 0xFFFFFFFF
  xl := 0xFF
  yl := 0x80
  sl := 0xFF
  n := true
  v := true
  z := false
  c := true

/-- A state whose `RESET_DRAW` is that constant. -/
def constState : State := { base with cfg := { Config.default with resetDraw := .const resetConst } }

/-- RS1 of 95_test_vectors.md, the part that `RESET_DRAW` = "preserve" keeps. -/
theorem test_RS1 :
    nextIs (step (seeing { Inputs.quiet with res := .atBoundary }
      { nativeState with
        run := .stopped, a := 0xDEADBEEF, x := 0x12345678, y := 0x9ABCDEF0, sp := 0x2345
        cfg := { Config.default with resetDraw := .preserve } }))
      (fun t => t.a == 0xDEADBEEF && t.x == 0x78 && t.y == 0xF0 && t.sp == 0x0145) = true := by decide

theorem witness_ResetStep :
    (let s := seeing { Inputs.quiet with res := .atBoundary } { base with cfg := { Config.default with resetDraw := .preserve } };
      (currentInputs s).res ≠ .inactive ∧ s.cfg.resetDraw = .preserve ∧ (currentInputs s).res = .atBoundary) ∧
    (let s := seeing { Inputs.quiet with res := .midStep } constState;
      (currentInputs s).res ≠ .inactive ∧ (currentInputs s).res = .midStep ∧ s.cfg.resetDraw = .const resetConst) := by
  decide

theorem witness_AbortedInstructionStep :
    let s := seeing { Inputs.quiet with abort := true, irq := true }
      { base with cfg := { Config.default with abortModel := .precise } }
    s.cfg.abortModel = .precise ∧ (currentInputs s).abort = true ∧ (currentInputs s).res = .inactive ∧
      (currentInputs s).nmiEdge = false ∧ ((currentInputs s).irq = true → s.p.i = true) ∧ noneLatched s ∧
      s.run = .running := by
  unfold noneLatched
  decide

theorem witness_AssemblerRespectsWidths :
    assemble ctx32 0x8000 .lda (.imm .low ⟨0xFFFFFFFF, true, none⟩) = some (.ldaImm (.b4 0xFFFFFFFF)) ∧
      assemble ctx8 0xFFFF .mvn (.two ⟨0, true, none⟩ ⟨0xFF, true, none⟩) = some (.mvn (.banks 0xFF 0)) := by decide

end Sys2Proof.Tests
end

/-! # Proofs: scope, environment and the step

What the instructions of the opcode table do, as a short list of shared operations; that none of them touches the
environment of the processor (R10, R45, R46); and what a step does at a calm boundary (R367 (7)). -/

namespace Sys2Proof.Machine

/-! ## What an instruction can do -/

/-- A shift, count or test-and-set leaves the width flags M and Xf alone (R205 to R216). -/
def KeepsWidths (f : Width → Word → Status → Word × Status) : Prop :=
  ∀ w v p, (f w v p).2.m = p.m ∧ (f w v p).2.x = p.x

theorem aslOp_keepsWidths : KeepsWidths aslOp := fun _ _ _ => ⟨rfl, rfl⟩
theorem lsrOp_keepsWidths : KeepsWidths lsrOp := fun _ _ _ => ⟨rfl, rfl⟩
theorem rolOp_keepsWidths : KeepsWidths rolOp := fun _ _ _ => ⟨rfl, rfl⟩
theorem rorOp_keepsWidths : KeepsWidths rorOp := fun _ _ _ => ⟨rfl, rfl⟩
theorem incOp_keepsWidths : KeepsWidths incOp := fun _ _ _ => ⟨rfl, rfl⟩
theorem decOp_keepsWidths : KeepsWidths decOp := fun _ _ _ => ⟨rfl, rfl⟩
theorem tsbOp_keepsWidths (a : Word) : KeepsWidths (tsbOp a) := fun _ _ _ => ⟨rfl, rfl⟩
theorem trbOp_keepsWidths (a : Word) : KeepsWidths (trbOp a) := fun _ _ _ => ⟨rfl, rfl⟩

/-- What an instruction can answer in a state. Instructions that differ only in their operand, their mode or the
register and condition they name share one case, which does not name them; every other instruction has a case of its
own, so that the case says which instruction alone writes PBR, DBR, D, a mode bit or the run state. A shared case that
takes the new flags as a parameter says that M and Xf stay. A property of every instruction is proved over these cases
and carried to `exec` by `exec_runsAs`. -/
inductive RunsAs (s : State) : Instr → Out → Prop where
  | add {i} (o : Operand) : RunsAs s i (addOp o s)
  | sub {i} (o : Operand) : RunsAs s i (subOp o s)
  | logic {i} (f : Word → Word → Word) (o : Operand) : RunsAs s i (logicOp f o s)
  | compare {i} (w : Width) (reg : Word) (o : Operand) : RunsAs s i (compareOp w reg o s)
  | bitMem {i} (m : Mode) : RunsAs s i (Machine.bitMem m s)
  | bitImm {i} (v : Imm) : RunsAs s i (bitImmediate v s)
  | loadA {i} (o : Operand) : RunsAs s i (Machine.loadA o s)
  | loadX {i} (o : Operand) : RunsAs s i (Machine.loadX o s)
  | loadY {i} (o : Operand) : RunsAs s i (Machine.loadY o s)
  | store {i} (w : Width) (v : Word) (m : Mode) : RunsAs s i (Machine.store w v m s)
  | transferA {i} (w : Width) (v : Word) : RunsAs s i (Machine.transferA w v s)
  | transferX {i} (v : Word) : RunsAs s i (Machine.transferX v s)
  | transferY {i} (v : Word) : RunsAs s i (Machine.transferY v s)
  | transferS {i} (v : Half) : RunsAs s i (Machine.transferS v s)
  | branch {i} (cond : Bool) (off : Byte) : RunsAs s i (Machine.branch cond off s)
  | rmwMem {i f} (hf : KeepsWidths f) (m : Mode) : RunsAs s i (Machine.rmwMem f m s)
  | rmwAcc {i f} (hf : KeepsWidths f) : RunsAs s i (Machine.rmwAcc f s)
  | countX {i f} (hf : KeepsWidths f) : RunsAs s i (Machine.countX f s)
  | countY {i f} (hf : KeepsWidths f) : RunsAs s i (Machine.countY f s)
  | flag {i} (p : Status) (hm : p.m = s.p.m) (hx : p.x = s.p.x) : RunsAs s i (flagOp p s)
  | mask {i} (b : Byte) : RunsAs s i (maskOp b s)
  | pushWord {i} (v : Half) (len : Nat) : RunsAs s i (Machine.pushWord v len s)
  | pushReg {i} (v : Word) (w : Width) : RunsAs s i (.next ((s.pushN .wrapping v w.bytes).advance 1))
  | pushByte {i} (v : Byte) : RunsAs s i (.next ((s.push8 .wrapping v).advance 1))
  | jump {i} (v : Half) : RunsAs s i (.next (s.setPc v))
  | idle {i} (len : Nat) : RunsAs s i (.next (s.advance len))
  | brk (g : Byte) : RunsAs s (.brk g) (execBrk g s)
  | cop (g : Byte) : RunsAs s (.cop g) (execCop g s)
  | rti : RunsAs s .rti (execRti s)
  | wai : RunsAs s .wai (execWai s)
  | stp : RunsAs s .stp (execStp s)
  | jmpLong (a : BitVec 24) : RunsAs s (.jmpLong a) (execJmpLong a s)
  | jmpAbsInd (a : Half) : RunsAs s (.jmpAbsInd a) (execJmpAbsInd a s)
  | jmpAbsXInd (a : Half) : RunsAs s (.jmpAbsXInd a) (execJmpAbsXInd a s)
  | jml (a : Half) : RunsAs s (.jml a) (execJml a s)
  | jsrAbs (a : Half) : RunsAs s (.jsrAbs a) (execJsrAbs a s)
  | jsrAbsXInd (a : Half) : RunsAs s (.jsrAbsXInd a) (execJsrAbsXInd a s)
  | jsl (a : BitVec 24) : RunsAs s (.jsl a) (execJsl a s)
  | rts : RunsAs s .rts (execRts s)
  | rtl : RunsAs s .rtl (execRtl s)
  | mvn (b : BlockBanks) : RunsAs s (.mvn b) (moveStep 1 b s)
  | mvp (b : BlockBanks) : RunsAs s (.mvp b) (moveStep (-1) b s)
  | tcd : RunsAs s .tcd (execTcd s)
  | xba : RunsAs s .xba (execXba s)
  | pei (off : Byte) : RunsAs s (.pei off) (execPei off s)
  | pla : RunsAs s .pla (execPla s)
  | plx : RunsAs s .plx (execPlx s)
  | ply : RunsAs s .ply (execPly s)
  | plp : RunsAs s .plp (execPlp s)
  | plb : RunsAs s .plb (execPlb s)
  | pld : RunsAs s .pld (execPld s)
  | xce : RunsAs s .xce (execXce s)
  | xfe : RunsAs s .xfe (execXfe s)

/-- Every instruction of the opcode table answers as its case says. -/
theorem exec_runsAs (i : Instr) (s : State) : RunsAs s i (exec i s) := by
  cases i with
  | adcDirXInd _ | adcStk _ | adcDir _ | adcDirLong _ | adcImm _ | adcAbs _ | adcLong _ | adcDirIndY _ | adcDirInd _
    | adcStkIndY _ | adcDirX _ | adcDirLongY _ | adcAbsY _ | adcAbsX _ | adcLongX _ => exact .add _
  | sbcDirXInd _ | sbcStk _ | sbcDir _ | sbcDirLong _ | sbcImm _ | sbcAbs _ | sbcLong _ | sbcDirIndY _ | sbcDirInd _
    | sbcStkIndY _ | sbcDirX _ | sbcDirLongY _ | sbcAbsY _ | sbcAbsX _ | sbcLongX _ => exact .sub _
  | oraDirXInd _ | oraStk _ | oraDir _ | oraDirLong _ | oraImm _ | oraAbs _ | oraLong _ | oraDirIndY _ | oraDirInd _
    | oraStkIndY _ | oraDirX _ | oraDirLongY _ | oraAbsY _ | oraAbsX _ | oraLongX _ | andDirXInd _ | andStk _
    | andDir _ | andDirLong _ | andImm _ | andAbs _ | andLong _ | andDirIndY _ | andDirInd _ | andStkIndY _
    | andDirX _ | andDirLongY _ | andAbsY _ | andAbsX _ | andLongX _ | eorDirXInd _ | eorStk _ | eorDir _
    | eorDirLong _ | eorImm _ | eorAbs _ | eorLong _ | eorDirIndY _ | eorDirInd _ | eorStkIndY _ | eorDirX _
    | eorDirLongY _ | eorAbsY _ | eorAbsX _ | eorLongX _ => exact .logic _ _
  | cpyImm _ | cmpDirXInd _ | cmpStk _ | cpyDir _ | cmpDir _ | cmpDirLong _ | cmpImm _ | cpyAbs _ | cmpAbs _
    | cmpLong _ | cmpDirIndY _ | cmpDirInd _ | cmpStkIndY _ | cmpDirX _ | cmpDirLongY _ | cmpAbsY _ | cmpAbsX _
    | cmpLongX _ | cpxImm _ | cpxDir _ | cpxAbs _ => exact .compare _ _ _
  | bitDir _ | bitAbs _ | bitDirX _ | bitAbsX _ => exact .bitMem _
  | bitImm _ => exact .bitImm _
  | ldaDirXInd _ | ldaStk _ | ldaDir _ | ldaDirLong _ | ldaImm _ | ldaAbs _ | ldaLong _ | ldaDirIndY _ | ldaDirInd _
    | ldaStkIndY _ | ldaDirX _ | ldaDirLongY _ | ldaAbsY _ | ldaAbsX _ | ldaLongX _ => exact .loadA _
  | ldxImm _ | ldxDir _ | ldxAbs _ | ldxDirY _ | ldxAbsY _ => exact .loadX _
  | ldyImm _ | ldyDir _ | ldyAbs _ | ldyDirX _ | ldyAbsX _ => exact .loadY _
  | stzDir _ | stzDirX _ | staDirXInd _ | staStk _ | styDir _ | staDir _ | stxDir _ | staDirLong _ | styAbs _
    | staAbs _ | stxAbs _ | staLong _ | staDirIndY _ | staDirInd _ | staStkIndY _ | styDirX _ | staDirX _ | stxDirY _
    | staDirLongY _ | staAbsY _ | stzAbs _ | staAbsX _ | stzAbsX _ | staLongX _ => exact .store _ _ _
  | tsc | tdc | txa | tya => exact .transferA _ _
  | tax | tsx | tyx => exact .transferX _
  | txy | tay => exact .transferY _
  | tcs | txs => exact .transferS _
  | bpl _ | bmi _ | bvc _ | bvs _ | bra _ | bcc _ | bcs _ | bne _ | beq _ => exact .branch _ _
  | aslDir _ | aslAbs _ | aslDirX _ | aslAbsX _ => exact .rmwMem aslOp_keepsWidths _
  | lsrDir _ | lsrAbs _ | lsrDirX _ | lsrAbsX _ => exact .rmwMem lsrOp_keepsWidths _
  | rolDir _ | rolAbs _ | rolDirX _ | rolAbsX _ => exact .rmwMem rolOp_keepsWidths _
  | rorDir _ | rorAbs _ | rorDirX _ | rorAbsX _ => exact .rmwMem rorOp_keepsWidths _
  | incDir _ | incAbs _ | incDirX _ | incAbsX _ => exact .rmwMem incOp_keepsWidths _
  | decDir _ | decAbs _ | decDirX _ | decAbsX _ => exact .rmwMem decOp_keepsWidths _
  | tsbDir _ | tsbAbs _ => exact .rmwMem (tsbOp_keepsWidths _) _
  | trbDir _ | trbAbs _ => exact .rmwMem (trbOp_keepsWidths _) _
  | aslAcc => exact .rmwAcc aslOp_keepsWidths
  | lsrAcc => exact .rmwAcc lsrOp_keepsWidths
  | rolAcc => exact .rmwAcc rolOp_keepsWidths
  | rorAcc => exact .rmwAcc rorOp_keepsWidths
  | incAcc => exact .rmwAcc incOp_keepsWidths
  | decAcc => exact .rmwAcc decOp_keepsWidths
  | inx => exact .countX incOp_keepsWidths
  | dex => exact .countX decOp_keepsWidths
  | iny => exact .countY incOp_keepsWidths
  | dey => exact .countY decOp_keepsWidths
  | clc | sec | cli | sei | clv | cld | sed => exact .flag _ rfl rfl
  | rep _ | sep _ => exact .mask _
  | phd | pea _ | per _ => exact .pushWord _ _
  | pha | phx | phy => exact .pushReg _ _
  | php | phb | phk => exact .pushByte _
  | jmpAbs _ | brl _ => exact .jump _
  | nop | wdm _ => exact .idle _
  | brk _ => exact .brk _
  | cop _ => exact .cop _
  | rti => exact .rti
  | wai => exact .wai
  | stp => exact .stp
  | jmpLong _ => exact .jmpLong _
  | jmpAbsInd _ => exact .jmpAbsInd _
  | jmpAbsXInd _ => exact .jmpAbsXInd _
  | jml _ => exact .jml _
  | jsrAbs _ => exact .jsrAbs _
  | jsrAbsXInd _ => exact .jsrAbsXInd _
  | jsl _ => exact .jsl _
  | rts => exact .rts
  | rtl => exact .rtl
  | mvn _ => exact .mvn _
  | mvp _ => exact .mvp _
  | tcd => exact .tcd
  | xba => exact .xba
  | pei _ => exact .pei _
  | pla => exact .pla
  | plx => exact .plx
  | ply => exact .ply
  | plp => exact .plp
  | plb => exact .plb
  | pld => exact .pld
  | xce => exact .xce
  | xfe => exact .xfe

/-! ## What an answer, if it is a next state, satisfies -/

/-- Whenever the answer is a next state, that state satisfies `P`. -/
def Ensures (o : Out) (P : State → Prop) : Prop := ∀ t, o = .next t → P t

@[simp] theorem ensures_next {t : State} {P : State → Prop} : Ensures (.next t) P ↔ P t :=
  ⟨fun h => h t rfl, fun h _ e => Host.Outcome.next.inj e ▸ h⟩

@[simp] theorem ensures_fault {r : Fault} {P : State → Prop} : Ensures (.fault r) P := fun _ => nofun

@[simp] theorem ensures_refused {r : Refusal} {P : State → Prop} : Ensures (.refused r) P := fun _ => nofun

theorem Ensures.mono {o : Out} {P Q : State → Prop} (h : Ensures o P) (hPQ : ∀ t, P t → Q t) : Ensures o Q :=
  fun t e => hPQ t (h t e)

/-! ## The environment under an instruction -/

/-- The parameters, the two latches and the coming inputs are the same in `t` as in `s`. -/
def SameEnv (s t : State) : Prop :=
  t.cfg = s.cfg ∧ t.nmiPending = s.nmiPending ∧ t.abortPending = s.abortPending ∧ t.inputs = s.inputs

theorem SameEnv.refl (s : State) : SameEnv s s := ⟨rfl, rfl, rfl, rfl⟩

theorem SameEnv.trans {s t u : State} (h : SameEnv s t) (k : SameEnv t u) : SameEnv s u := by
  obtain ⟨hc, hn, ha, hi⟩ := h
  obtain ⟨kc, kn, ka, ki⟩ := k
  exact ⟨kc.trans hc, kn.trans hn, ka.trans ha, ki.trans hi⟩

theorem moveBank_sameEnv (b : BlockBanks) (s : State) : SameEnv s (moveBank b s) := by
  cases b <;> exact .refl s

theorem moveStep_sameEnv (d : Word) (b : BlockBanks) (s : State) : Ensures (moveStep d b s) (SameEnv s) := by
  obtain ⟨hc, hn, ha, hi⟩ := moveBank_sameEnv b s
  unfold moveStep
  split <;> simp [SameEnv, *]

/-- No case of `RunsAs` touches the environment: each is made of shared operations that leave it alone. -/
theorem RunsAs.sameEnv {s : State} {i : Instr} {o : Out} (h : RunsAs s i o) : Ensures o (SameEnv s) := by
  cases h with
  | add o => simp [addOp, SameEnv]
  | sub o => simp [subOp, SameEnv]
  | logic f o => simp [logicOp, SameEnv]
  | compare w reg o => simp [compareOp, SameEnv]
  | bitMem m => simp [Machine.bitMem, SameEnv]
  | bitImm v => simp [bitImmediate, SameEnv]
  | loadA o => simp [Machine.loadA, SameEnv]
  | loadX o => simp [Machine.loadX, SameEnv]
  | loadY o => simp [Machine.loadY, SameEnv]
  | store w v m => simp [Machine.store, SameEnv]
  | transferA w v => simp [Machine.transferA, SameEnv]
  | transferX v => simp [Machine.transferX, SameEnv]
  | transferY v => simp [Machine.transferY, SameEnv]
  | transferS v => simp [Machine.transferS, SameEnv]
  | branch cond off => simp [Machine.branch, SameEnv]
  | rmwMem hf m => simp [Machine.rmwMem, SameEnv]
  | rmwAcc hf => simp [Machine.rmwAcc, SameEnv]
  | countX hf => simp [Machine.countX, SameEnv]
  | countY hf => simp [Machine.countY, SameEnv]
  | flag p hm hx => simp [flagOp, SameEnv]
  | mask b => simp [maskOp, SameEnv]
  | pushWord v len => simp [Machine.pushWord, SameEnv]
  | pushReg v w => simp [SameEnv]
  | pushByte v => simp [SameEnv]
  | jump v => simp [SameEnv]
  | idle len => simp [SameEnv]
  | brk g => simp [execBrk, SameEnv]
  | cop g => simp [execCop, SameEnv]
  | rti => simp [execRti, SameEnv]
  | wai => simp [execWai, SameEnv]
  | stp => simp [execStp, SameEnv]
  | jmpLong a => simp [execJmpLong, SameEnv]
  | jmpAbsInd a => simp [execJmpAbsInd, SameEnv]
  | jmpAbsXInd a => simp [execJmpAbsXInd, SameEnv]
  | jml a => simp [execJml, SameEnv]
  | jsrAbs a => simp [execJsrAbs, SameEnv]
  | jsrAbsXInd a => simp [execJsrAbsXInd, SameEnv]
  | jsl a => simp [execJsl, SameEnv]
  | rts => simp [execRts, SameEnv]
  | rtl => simp [execRtl, SameEnv]
  | mvn b => exact moveStep_sameEnv 1 b s
  | mvp b => exact moveStep_sameEnv (-1) b s
  | tcd => simp [execTcd, SameEnv]
  | xba => simp [execXba, SameEnv]
  | pei off => simp [execPei, Machine.pushWord, SameEnv]
  | pla => simp [execPla, SameEnv]
  | plx => simp [execPlx, SameEnv]
  | ply => simp [execPly, SameEnv]
  | plp => simp [execPlp, SameEnv]
  | plb => simp [execPlb, SameEnv]
  | pld => simp [execPld, SameEnv]
  | xce => simp [execXce, SameEnv]
  | xfe => simp [execXfe, SameEnv]

/-- No instruction touches the environment (R10, R45, R46). -/
theorem exec_sameEnv (i : Instr) (s : State) : Ensures (exec i s) (SameEnv s) := (exec_runsAs i s).sameEnv

/-! ## The parameters and the coming inputs under a step

A step folds the inputs of its boundary into the latches, and a hardware interrupt clears one, so over a whole step only
the parameters and the inputs still to come are kept. -/

/-- The parameters and the coming inputs are the same in `t` as in `s`. -/
def SameSetting (s t : State) : Prop := t.cfg = s.cfg ∧ t.inputs = s.inputs

theorem SameEnv.sameSetting {s t : State} (h : SameEnv s t) : SameSetting s t := by
  obtain ⟨hc, -, -, hi⟩ := h
  exact ⟨hc, hi⟩

/-- Fetching an instruction and running it touches nothing of the environment. -/
theorem runInstr_sameEnv (s : State) : Ensures (runInstr s) (SameEnv s) := by
  have hfetch : SameEnv s (s.noteFetches (fetchedFirst s.fetchInstr)) := by simp [SameEnv]
  exact (exec_sameEnv _ _).mono fun _ => hfetch.trans

@[simp] theorem unsettled_cfg (s t : State) : (unsettled s t).cfg = s.cfg := rfl
@[simp] theorem unsettled_inputs (s t : State) : (unsettled s t).inputs = s.inputs := rfl

theorem abortedInstr_sameSetting (s : State) : Ensures (abortedInstr s) (SameSetting s) := by
  unfold abortedInstr
  split <;> simp [SameSetting]

theorem instrStep_sameSetting (inp : Inputs) (s : State) : Ensures (instrStep inp s) (SameSetting s) := by
  unfold instrStep
  split
  · exact abortedInstr_sameSetting s
  · exact (runInstr_sameEnv s).mono fun _ => SameEnv.sameSetting

theorem hardwareInterrupt_sameSetting (src : IntSource) (inp : Inputs) (s : State) :
    Ensures (hardwareInterrupt src inp s) (SameSetting s) := by
  unfold hardwareInterrupt
  split <;> simp [SameSetting]

theorem idleWaiting_sameSetting (inp : Inputs) (s : State) : Ensures (idleWaiting inp s) (SameSetting s) := by
  unfold idleWaiting
  split <;> simp [SameSetting]

/-- The setters that `chooseStep` applies before an interrupt or an instruction (a latch cleared, the processor woken)
keep the setting by definition, so each branch is the lemma about its own kind of step. -/
theorem chooseStep_sameSetting (inp : Inputs) (s : State) : Ensures (chooseStep inp s) (SameSetting s) := by
  unfold chooseStep
  split_ifs
  · exact ensures_next.2 ⟨rfl, rfl⟩
  · exact hardwareInterrupt_sameSetting .abort inp (s.setAbort false)
  · exact hardwareInterrupt_sameSetting .nmi inp (s.setNmi false)
  · exact hardwareInterrupt_sameSetting .irq inp s
  · exact instrStep_sameSetting inp (s.setRun .running)
  · exact idleWaiting_sameSetting inp s
  · exact instrStep_sameSetting inp s

@[simp] theorem latchNmi_cfg (inp : Inputs) (s : State) : (latchNmi inp s).cfg = s.cfg := by
  unfold latchNmi
  split <;> rfl

@[simp] theorem latchNmi_inputs (inp : Inputs) (s : State) : (latchNmi inp s).inputs = s.inputs := by
  unfold latchNmi
  split <;> rfl

@[simp] theorem atBoundary_cfg (s : State) : (atBoundary s).cfg = s.cfg := by simp [atBoundary]
@[simp] theorem atBoundary_inputs (s : State) : (atBoundary s).inputs = s.inputs.tail := by simp [atBoundary]

theorem resetMidStep_sameSetting (s : State) : Ensures (resetMidStep s) (SameSetting (atBoundary s)) := by
  unfold resetMidStep
  split <;> simp [SameSetting]

/-- A step keeps what its boundary has left of the setting: the parameters, and the inputs after the first. -/
theorem step_sameSetting (s : State) : Ensures (step s) (SameSetting (atBoundary s)) := by
  unfold step boundary
  split
  · exact chooseStep_sameSetting _ _
  · simp [SameSetting]
  · exact resetMidStep_sameSetting s

/-- Settles O10: the frame of `exec` comes from the cases of `RunsAs`, that of `step` from its kinds of step. -/
theorem noInstructionTouchesTheEnvironment : Obligations.NoInstructionTouchesTheEnvironment := by
  refine ⟨exec_sameEnv, fun s t h => ?_⟩
  obtain ⟨hcfg, hinputs⟩ := step_sameSetting s t h
  exact ⟨hcfg.trans (atBoundary_cfg s), hinputs.trans (atBoundary_inputs s)⟩

/-! ## The step at a calm boundary -/

/-- The decoder on byte strings and the decoder that the step uses agree on five bytes (R100). -/
theorem decodeBytes_of_decode {c : DecodeCtx} {b0 b1 b2 b3 b4 : Byte} {i : Instr} {tail : List Byte}
    (h : decode c [b0, b1, b2, b3, b4] = .ok (i, tail)) : decodeBytes c b0 b1 b2 b3 b4 = i := by
  rw [decode] at h
  split at h
  · cases h
  · cases h
    rfl

theorem fetchInstr_of_decode {s : State} {i : Instr} {tail : List Byte}
    (h : decode s.ctx [s.fetch 0, s.fetch 1, s.fetch 2, s.fetch 3, s.fetch 4] = .ok (i, tail)) : s.fetchInstr = i :=
  decodeBytes_of_decode h

/-- Moving the inputs on and emptying the bus record changes nothing that a fetch reads. -/
theorem fetchInstr_setInputs_setBus (l : List Inputs) (b : List BusEvent) (s : State) :
    ((s.setInputs l).setBus b).fetchInstr = s.fetchInstr := rfl

/-- Without an NMI- edge the latch stays as it is, also in a stopped processor (R366). -/
theorem latchNmi_of_no_edge {inp : Inputs} (h : inp.nmiEdge = false) (s : State) : latchNmi inp s = s := by
  have hset : s.setNmi (s.nmiPending || inp.nmiEdge) = s := by rw [h, Bool.or_false]; rfl
  unfold latchNmi
  rw [hset, ite_self]

theorem abortAsserted_eq_false {inp : Inputs} {s : State} (h : inp.abort = true → s.cfg.abortModel = .none) :
    abortAsserted inp s = false := by
  cases hab : inp.abort with
  | false => simp [abortAsserted, hab]
  | true => simp [abortAsserted, h hab]

theorem instrStep_of_not_aborted {inp : Inputs} {s : State} (h : abortAsserted inp s = false) :
    instrStep inp s = runInstr s := by
  simp [instrStep, h]

/-- Case (7) of R367: a running processor with nothing latched and IRQ- high or masked runs an instruction. -/
theorem chooseStep_of_running {inp : Inputs} {s : State} (hrun : s.run = .running) (hlatch : noneLatched s)
    (hirq : inp.irq = true → s.p.i = true) : chooseStep inp s = instrStep inp s := by
  obtain ⟨hnmi, habort⟩ := hlatch
  have hmasked : ¬(inp.irq ∧ s.p.i = false) := fun ⟨hi, hp⟩ => Bool.false_ne_true (hp.symm.trans (hirq hi))
  simp [chooseStep, hrun, hnmi, habort, hmasked]

/-- A calm boundary only moves the inputs on and empties the bus record. -/
theorem atBoundary_of_calm {s : State} (h : calm s) : atBoundary s = (s.setInputs s.inputs.tail).setBus [] := by
  obtain ⟨-, hedge, -, -⟩ := h
  exact latchNmi_of_no_edge hedge _

/-- At a calm boundary a running processor with nothing latched runs the instruction at PBR:PC. -/
theorem step_of_calm {s : State} (hcalm : calm s) (hlatch : noneLatched s) (hrun : s.run = .running) :
    step s = runInstr ((s.setInputs s.inputs.tail).setBus []) := by
  have hboundary := atBoundary_of_calm hcalm
  obtain ⟨hres, -, hirq, habort⟩ := hcalm
  calc step s
      = chooseStep (currentInputs s) (atBoundary s) := by rw [step, boundary, hres]
    _ = chooseStep (currentInputs s) ((s.setInputs s.inputs.tail).setBus []) := by rw [hboundary]
    _ = instrStep (currentInputs s) ((s.setInputs s.inputs.tail).setBus []) := chooseStep_of_running hrun hlatch hirq
    _ = runInstr ((s.setInputs s.inputs.tail).setBus []) := instrStep_of_not_aborted (abortAsserted_eq_false habort)

/-- Settles O4: the calm boundary leaves case (7) of R367, and the state it leaves fetches the same bytes. -/
theorem stepRunsDecodedInstruction : Obligations.StepRunsDecodedInstruction := by
  intro s i tail hcalm hlatch hrun hdecode
  rw [step_of_calm hcalm hlatch hrun, runInstr, fetchInstr_setInputs_setBus, fetchInstr_of_decode hdecode]

end Sys2Proof.Machine

/-! # Proofs: the state

The invariant of the machine under every operation, instruction and step (R25, R35, R43, R70, R367 (3)); who writes the
bank registers, D, the mode bits and the run state (R31, R39, R40, R47, R322, R323); the pushes of one byte (R248 to
R251); the table of widths (R34); and the mode exchanges (R320 to R322). -/

namespace Sys2Proof.Machine

/-! ## Frames compose -/

theorem Piece.same_trans {s t u : State} {q : Piece} (h : q.same s t) (k : q.same t u) : q.same s u := by
  cases q with
  | modes => exact ⟨k.1.trans h.1, k.2.trans h.2⟩
  | mem => exact fun a => (k a).trans (h a)
  | _ => exact Eq.trans (show _ = _ from k) h

theorem unchangedBut.trans {c d : List Piece} {s t u : State} (h : unchangedBut c s t) (k : unchangedBut d t u) :
    unchangedBut (c ++ d) s u := fun q hq => by
  rw [List.mem_append, not_or] at hq
  exact Piece.same_trans (h q hq.1) (k q hq.2)

theorem unchangedBut.mono {c d : List Piece} {s t : State} (h : unchangedBut c s t) (hcd : c ⊆ d) :
    unchangedBut d s t :=
  fun q hq => h q fun hc => hq (hcd hc)

/-- A piece that turns out to be the same leaves the list of changed pieces. -/
theorem unchangedBut.remove {q : Piece} {c : List Piece} {s t : State} (h : unchangedBut (q :: c) s t)
    (hq : q.same s t) : unchangedBut c s t := fun r hr => by
  by_cases e : r = q
  · exact e ▸ hq
  · exact h r (by simp [e, hr])

theorem setP_frame (p : Status) (s : State) : unchangedBut [.p] s (s.setP p) := by
  intro q hq
  cases q with
  | p => simp at hq
  | modes | mem => simp [Piece.same]
  | _ => rfl

theorem setModes_frame (e8 e16 : Bool) (s : State) : unchangedBut [.modes] s (s.setModes e8 e16) := by
  intro q hq
  cases q with
  | modes => simp at hq
  | mem => simp [Piece.same]
  | _ => rfl

theorem advance_frame (n : Nat) (s : State) : unchangedBut [.pc] s (s.advance n) := by
  intro q hq
  cases q with
  | pc => simp at hq
  | modes | mem => simp [Piece.same]
  | _ => rfl

theorem push8_frame (r : StackRule) (v : Byte) (s : State) : unchangedBut [.mem, .sp] s (s.push8 r v) := by
  intro q hq
  cases q with
  | mem | sp => simp at hq
  | modes => simp [Piece.same]
  | _ => rfl

theorem normalise_frame (old : Width) (s : State) : unchangedBut [.free, .p, .x, .y, .sp] s (s.normalise old) := by
  intro q hq
  cases q with
  | free | p | x | y | sp => simp at hq
  | _ => simp [Piece.same]

theorem advance_pcMoves (n : Nat) (s : State) : pcMoves s (s.advance n) n := State.advance_pc n s

/-! ## The parts of the invariant -/

/-- In `emu8`, M and Xf are 1 (R35). -/
def State.FlagsOk (s : State) : Prop := s.emu8 = true → s.p.m = true ∧ s.p.x = true

/-- In `emu8`, SH is `$01` (R43). -/
def State.StackOk (s : State) : Prop := s.emu8 = true → halfHi s.sp = 0x01

/-- While Xf is 1, bits 31:8 of X and Y are 0 (R25). -/
def State.IndexOk (s : State) : Prop := s.p.x = true → s.x.toNat < 256 ∧ s.y.toNat < 256

/-- ABORT- is latched only under the precise abort model (R367 (3)). -/
def State.AbortOk (s : State) : Prop := s.abortPending = true → s.cfg.abortModel = .precise

/-- The invariant but for the place of S, which the pushes and pulls that do not wrap leave undecided until the
instruction ends (R83, D25). -/
structure State.InvOffStack (s : State) : Prop where
  memOk : s.MemOk
  flagsOk : s.FlagsOk
  indexOk : s.IndexOk
  abortOk : s.AbortOk

theorem State.inv_iff {s : State} : s.Inv ↔ s.InvOffStack ∧ s.StackOk := by
  constructor
  · rintro ⟨hwf, hspace, hemu8, hindex, habort⟩
    refine ⟨⟨⟨hwf, hspace⟩, fun he => ?_, hindex, habort⟩, fun he => ?_⟩
    · obtain ⟨hm, hx, -⟩ := hemu8 he
      exact ⟨hm, hx⟩
    · obtain ⟨-, -, hsp⟩ := hemu8 he
      exact hsp
  · rintro ⟨⟨⟨hwf, hspace⟩, hflags, hindex, habort⟩, hstack⟩
    refine ⟨hwf, hspace, fun he => ?_, hindex, habort⟩
    obtain ⟨hm, hx⟩ := hflags he
    exact ⟨hm, hx, hstack he⟩

theorem State.Inv.offStack {s : State} (h : s.Inv) : s.InvOffStack := (State.inv_iff.1 h).1

theorem State.Inv.stackOk {s : State} (h : s.Inv) : s.StackOk := (State.inv_iff.1 h).2

/-! ## What the invariant does not see -/

/-- `t` agrees with `s` in all that the invariant speaks of, S apart. -/
def AgreeOffStack (s t : State) : Prop :=
  t.mem = s.mem ∧ t.cfg = s.cfg ∧ t.e8 = s.e8 ∧ t.e16 = s.e16 ∧ t.p.m = s.p.m ∧ t.p.x = s.p.x ∧ t.x = s.x ∧ t.y = s.y ∧
    t.abortPending = s.abortPending

theorem State.InvOffStack.of_agree {s t : State} (h : s.InvOffStack) (e : AgreeOffStack s t) : t.InvOffStack := by
  obtain ⟨hmem, hcfg, h8, h16, hm, hx, hix, hiy, habort⟩ := e
  refine ⟨State.memOk_congr hmem hcfg h.memOk, fun he => ?_, fun hf => ?_, fun ha => ?_⟩
  · rw [State.emu8_congr h16 h8] at he
    rw [hm, hx]
    exact h.flagsOk he
  · rw [hix, hiy]
    exact h.indexOk (hx ▸ hf)
  · rw [hcfg]
    exact h.abortOk (habort ▸ ha)

/-- `t` agrees with `s` in all that the invariant speaks of. -/
def AgreeOnInv (s t : State) : Prop := AgreeOffStack s t ∧ t.sp = s.sp

theorem State.StackOk.of_agree {s t : State} (h : s.StackOk) (e : AgreeOnInv s t) : t.StackOk := by
  obtain ⟨⟨-, -, h8, h16, -⟩, hsp⟩ := e
  intro he
  rw [hsp]
  exact h (State.emu8_congr h16 h8 ▸ he)

theorem State.Inv.of_agree {s t : State} (h : s.Inv) (e : AgreeOnInv s t) : t.Inv := by
  have hstack := h.stackOk.of_agree e
  obtain ⟨hoff, -⟩ := e
  exact State.inv_iff.2 ⟨h.offStack.of_agree hoff, hstack⟩

/-- An instruction keeps the invariant when its answer differs from a state that meets it only in what the invariant
does not see. -/
theorem State.Inv.ensures {s : State} {o : Out} (h : s.Inv) (e : Ensures o (AgreeOnInv s)) : Ensures o State.Inv :=
  e.mono fun _ => h.of_agree

/-! ## Operations that touch what the invariant sees -/

/-- With Xf = 1 the index width is 8 bits (R34). -/
theorem State.xw_of_x {s : State} (h : s.p.x = true) : s.xw = .w8 := by rw [State.xw, h]; rfl

/-- Eight new bits leave the bits above them 0. -/
theorem Width.merge_w8_lt {old : Word} (v : Word) (h : old.toNat < 256) : (Width.w8.merge old v).toNat < 256 := by
  have := Width.merge_toNat .w8 old v
  simp only [Width.bits] at this
  omega

theorem State.Inv.writeX {s : State} (h : s.Inv) {w : Width} (hw : s.p.x = true → w = .w8) (v : Word) :
    (s.writeX w v).Inv := by
  refine State.inv_iff.2 ⟨⟨h.offStack.memOk, h.offStack.flagsOk, fun hx => ?_, h.offStack.abortOk⟩, h.stackOk⟩
  obtain ⟨hX, hY⟩ := h.offStack.indexOk hx
  obtain rfl := hw hx
  exact ⟨Width.merge_w8_lt v hX, hY⟩

theorem State.Inv.writeY {s : State} (h : s.Inv) {w : Width} (hw : s.p.x = true → w = .w8) (v : Word) :
    (s.writeY w v).Inv := by
  refine State.inv_iff.2 ⟨⟨h.offStack.memOk, h.offStack.flagsOk, fun hx => ?_, h.offStack.abortOk⟩, h.stackOk⟩
  obtain ⟨hX, hY⟩ := h.offStack.indexOk hx
  obtain rfl := hw hx
  exact ⟨hX, Width.merge_w8_lt v hY⟩

/-- A change of memory and the bus record alone keeps the invariant when it keeps the canonical form. -/
theorem State.Inv.writeBytes {s : State} (h : s.Inv) (ea : EA) (v : Word) (l : List Nat) :
    (s.writeBytes ea v l).Inv := by
  induction l generalizing s with
  | nil => exact h
  | cons i l ih =>
    have hmem := State.memOk_write8 .dataWrite (s.byteAddr ea i) (byteOf v i) h.offStack.memOk
    exact ih (State.inv_iff.2 ⟨⟨hmem, h.offStack.flagsOk, h.offStack.indexOk, h.offStack.abortOk⟩, h.stackOk⟩)

theorem State.Inv.memWrite {s : State} (h : s.Inv) (ea : EA) (n : Nat) (v : Word) : (s.memWrite ea n v).Inv :=
  h.writeBytes ea v _

theorem State.Inv.memWriteBack {s : State} (h : s.Inv) (ea : EA) (n : Nat) (v : Word) : (s.memWriteBack ea n v).Inv :=
  h.writeBytes ea v _

/-! ## The stack -/

@[simp] theorem halfHi_pageOne (sp : Half) : halfHi (pageOne sp) = 0x01 := halfHi_joinBytes ..

/-- `wrapS` puts S in page 1 in `emu8` (R43). -/
theorem State.halfHi_wrapS {s : State} (h : s.emu8 = true) (sp : Half) : halfHi (s.wrapS sp) = 0x01 := by
  rw [State.wrapS, if_pos h, halfHi_pageOne]

theorem State.InvOffStack.setSp {s : State} (h : s.InvOffStack) (sp : Half) : (s.setSp sp).InvOffStack :=
  h.of_agree (by simp [AgreeOffStack])

/-- The invariant holds again once S is put back in its page. -/
theorem State.InvOffStack.inv_setSp_wrapS {s : State} (h : s.InvOffStack) (sp : Half) : (s.setSp (s.wrapS sp)).Inv :=
  State.inv_iff.2 ⟨h.setSp _, fun he => State.halfHi_wrapS he sp⟩

theorem State.InvOffStack.inv_forceSH {s : State} (h : s.InvOffStack) : s.forceSH.Inv := h.inv_setSp_wrapS s.sp

theorem State.InvOffStack.push8 {s : State} (h : s.InvOffStack) (r : StackRule) (v : Byte) :
    (s.push8 r v).InvOffStack :=
  ⟨State.memOk_push8 r v h.memOk, h.flagsOk, h.indexOk, h.abortOk⟩

theorem State.InvOffStack.pushN {s : State} (h : s.InvOffStack) (r : StackRule) (v : Word) (n : Nat) :
    (s.pushN r v n).InvOffStack := by
  induction n generalizing s with
  | zero => exact h
  | succ n ih => exact ih (h.push8 r _)

theorem State.InvOffStack.pullN {s : State} (h : s.InvOffStack) (r : StackRule) (n : Nat) :
    (s.pullN r n).2.InvOffStack := h.of_agree (by simp [AgreeOffStack])

/-- A wrapping push ends in page 1, wherever it began (R80). -/
theorem State.Inv.push8 {s : State} (h : s.Inv) (v : Byte) : (s.push8 .wrapping v).Inv :=
  State.inv_iff.2 ⟨h.offStack.push8 .wrapping v, fun he => State.halfHi_wrapS he _⟩

theorem State.Inv.pushN {s : State} (h : s.Inv) (v : Word) (n : Nat) : (s.pushN .wrapping v n).Inv := by
  induction n generalizing s with
  | zero => exact h
  | succ n ih => exact ih (h.push8 _)

/-- A wrapping pull leaves S in page 1 (R82); that it records its read is nothing to the invariant. -/
theorem State.Inv.pull8 {s : State} (h : s.Inv) : (s.pull8 .wrapping).2.Inv :=
  h.offStack.inv_setSp_wrapS _

theorem State.Inv.pullN {s : State} (h : s.Inv) (n : Nat) : (s.pullN .wrapping n).2.Inv := by
  induction n with
  | zero => exact h
  | succ n ih => exact ih.pull8

/-! ## Normalisation, interrupts and reset -/

/-- The normalisation establishes the invariant from its memory and its latch alone: it sets M, Xf and SH in `emu8` and
cuts X and Y while Xf is 1 (R320). -/
theorem State.inv_normalise {s : State} (hmem : s.MemOk) (habort : s.AbortOk) (old : Width) :
    (s.normalise old).Inv := by
  have hflags : (s.normalise old).FlagsOk := fun he => by
    rw [State.normalise_emu8] at he
    rw [State.normalise_p, if_pos he]
    exact ⟨rfl, rfl⟩
  have hstack : (s.normalise old).StackOk := fun he => by
    rw [State.normalise_emu8] at he
    rw [State.normalise_sp, if_pos he, halfHi_pageOne]
  have hindex : (s.normalise old).IndexOk := fun hx => by
    have hnarrow : ¬(old = .w16 ∧ s.e16 = false ∧ s.p.x = false) := by
      rintro ⟨-, h16, hxf⟩
      rw [State.normalise_p, State.emu8, h16] at hx
      exact Bool.false_ne_true (hxf.symm.trans hx)
    obtain ⟨hX, hY, -⟩ := State.normalise_index old s hnarrow
    rw [hX, hY, if_pos hx, if_pos hx]
    exact ⟨Width.trunc_lt .w8 s.x, Width.trunc_lt .w8 s.y⟩
  have hmem' : (s.normalise old).MemOk := State.memOk_congr (State.normalise_mem ..) (State.normalise_cfg ..) hmem
  have habort' : (s.normalise old).AbortOk := by
    rw [State.AbortOk, State.normalise_abortPending, State.normalise_cfg]
    exact habort
  exact State.inv_iff.2 ⟨⟨hmem', hflags, hindex, habort'⟩, hstack⟩

theorem State.Inv.pushFrame {s : State} (h : s.Inv) (ret : Half) (brk : Bool) : (s.pushFrame ret brk).Inv := by
  unfold State.pushFrame
  split
  · exact (h.pushN _ _).push8 _
  · exact ((h.push8 _).pushN _ _).push8 _

theorem State.Inv.interrupt {s : State} (h : s.Inv) (src : IntSource) (ret : Half) (brk : Bool) :
    (s.interrupt src ret brk).Inv := by
  refine (h.pushFrame ret brk).of_agree ?_
  unfold State.interrupt
  split <;> simp [AgreeOnInv, AgreeOffStack]

/-- A normalisation restores the invariant after any change that leaves memory, the parameters and the ABORT- latch. -/
theorem State.Inv.normalise {s u : State} (h : s.Inv)
    (e : u.mem = s.mem ∧ u.cfg = s.cfg ∧ u.abortPending = s.abortPending) (old : Width) : (u.normalise old).Inv := by
  obtain ⟨hmem, hcfg, habort⟩ := e
  refine State.inv_normalise (State.memOk_congr hmem hcfg h.offStack.memOk) ?_ old
  rw [State.AbortOk, habort, hcfg]
  exact h.offStack.abortOk

theorem State.Inv.returnFromInterrupt {s : State} (h : s.Inv) : s.returnFromInterrupt.Inv := by
  unfold State.returnFromInterrupt
  split <;> exact h.normalise (by simp) _

/-- Reset establishes the invariant from memory alone (R410, R411). -/
theorem State.inv_resetSequence {s : State} (h : s.MemOk) : s.resetSequence.Inv := by
  have hindex (b : Byte) : (zextByte b).toNat < 256 := by rw [zextByte_toNat]; exact b.isLt
  refine State.inv_iff.2 ⟨⟨h, fun _ => ⟨rfl, rfl⟩, fun _ => ⟨hindex _, hindex _⟩, nofun⟩, fun _ => ?_⟩
  exact halfHi_joinBytes ..

/-! ## Block moves -/

/-- Outside native mode a block move puts its destination bank in DBR (R331); in native mode it leaves DBR as it is.
Either way nothing but DBR moves. -/
theorem moveBank_eq_setDbr (b : BlockBanks) (s : State) : ∃ v, moveBank b s = s.setDbr v := by
  cases b with
  | banks dst src => exact ⟨dst, rfl⟩
  | native => exact ⟨s.dbr, rfl⟩

/-! ## Instructions keep the invariant -/

@[simp] theorem State.setNZ_p_m (w : Width) (v : Word) (s : State) : (s.setNZ w v).p.m = s.p.m := rfl
@[simp] theorem State.setNZ_p_x (w : Width) (v : Word) (s : State) : (s.setNZ w v).p.x = s.p.x := rfl
@[simp] theorem State.putAlu_p_m (w : Width) (q : AluResult) (s : State) : (s.putAlu w q).p.m = s.p.m := rfl
@[simp] theorem State.putAlu_p_x (w : Width) (q : AluResult) (s : State) : (s.putAlu w q).p.x = s.p.x := rfl
@[simp] theorem Status.compare_m (w : Width) (reg v : Word) (p : Status) : (p.compare w reg v).m = p.m := rfl
@[simp] theorem Status.compare_x (w : Width) (reg v : Word) (p : Status) : (p.compare w reg v).x = p.x := rfl
@[simp] theorem Status.bitTest_m (w : Width) (a v : Word) (p : Status) : (p.bitTest w a v).m = p.m := rfl
@[simp] theorem Status.bitTest_x (w : Width) (a v : Word) (p : Status) : (p.bitTest w a v).x = p.x := rfl
@[simp] theorem Status.bitTestImm_m (w : Width) (a v : Word) (p : Status) : (p.bitTestImm w a v).m = p.m := rfl
@[simp] theorem Status.bitTestImm_x (w : Width) (a v : Word) (p : Status) : (p.bitTestImm w a v).x = p.x := rfl

@[simp] theorem State.writeX_x (w : Width) (v : Word) (s : State) : (s.writeX w v).x = w.merge s.x v := rfl
@[simp] theorem State.writeY_y (w : Width) (v : Word) (s : State) : (s.writeY w v).y = w.merge s.y v := rfl

/-- In `emu8` S is in page 1 after an instruction whose pushes or pulls did not wrap (R83). -/
@[simp] theorem State.forceSH_sp (s : State) :
    s.forceSH.sp = if (s.e16 && s.e8) = true then pageOne s.sp else s.sp := rfl

/-- A store writes memory after the reads of its pointer. -/
theorem store_inv {s : State} (h : s.Inv) (w : Width) (v : Word) (m : Mode) : Ensures (store w v m s) State.Inv := by
  have hread : (m.notePointer s).Inv := h.of_agree (by simp [AgreeOnInv, AgreeOffStack])
  exact (hread.memWrite (m.ea s) w.bytes v).ensures (by simp [store, AgreeOnInv, AgreeOffStack])

/-- A read-modify-write instruction writes memory after the reads of its operand, and no width flag. -/
theorem rmwMem_inv {s : State} (h : s.Inv) {f : Width → Word → Status → Word × Status} (hf : KeepsWidths f) (m : Mode) :
    Ensures (rmwMem f m s) State.Inv := by
  have hread : (m.noteData s.mw.bytes s).Inv := h.of_agree (by simp [AgreeOnInv, AgreeOffStack])
  obtain ⟨hm, hx⟩ := hf s.mw (s.memRead (m.ea s) s.mw.bytes) s.p
  exact (hread.memWriteBack (m.ea s) s.mw.bytes (f s.mw (s.memRead (m.ea s) s.mw.bytes) s.p).1).ensures
    (by simp [rmwMem, AgreeOnInv, AgreeOffStack, hm, hx])

/-- A block move writes one byte, X and Y at the index width, and pieces that the invariant does not see. -/
theorem moveStep_inv {s : State} (h : s.Inv) (d : Word) (b : BlockBanks) : Ensures (moveStep d b s) State.Inv := by
  obtain ⟨v, hv⟩ := moveBank_eq_setDbr b s
  have hread : ((s.setDbr v).noteReads .dataRead (moveSource b s) 1).Inv :=
    h.of_agree (by simp [AgreeOnInv, AgreeOffStack])
  have hwrite := hread.memWrite (moveDest b s) 1 (s.memRead (moveSource b s) 1)
  have hindex := (hwrite.writeX (w := s.xw) (by simpa using State.xw_of_x) (s.ix + d)).writeY (w := s.xw)
    (by simpa using State.xw_of_x) (s.iy + d)
  refine hindex.ensures ?_
  unfold moveStep
  rw [hv]
  split <;> simp [AgreeOnInv, AgreeOffStack]

/-- Two bytes pushed without wrapping, and S put back in page 1 at the end (R83). -/
theorem pushWord_inv {s : State} (h : s.InvOffStack) (v : Half) (len : Nat) : Ensures (pushWord v len s) State.Inv :=
  (h.pushN .plain (zextHalf v) 2).inv_forceSH.ensures (by simp [pushWord, AgreeOnInv, AgreeOffStack])

/-- Every case of `RunsAs` keeps the invariant: its answer agrees, in what the invariant sees, with a state that the
rules for writes of X, Y, memory, S and the modes say meets it. -/
theorem RunsAs.inv {s : State} {i : Instr} {o : Out} (h : RunsAs s i o) (hs : s.Inv) : Ensures o State.Inv := by
  cases h with
  -- the accumulator, DBR, D, PC, PBR, the run state and the flags other than M and Xf
  | add | sub | logic | compare | bitMem | bitImm | loadA =>
    exact hs.ensures (by simp [addOp, subOp, logicOp, compareOp, Machine.bitMem, bitImmediate, Machine.loadA,
      AgreeOnInv, AgreeOffStack])
  | transferA | xba | tcd | wai | stp =>
    exact hs.ensures (by simp [Machine.transferA, execXba, execTcd, execWai, execStp, AgreeOnInv, AgreeOffStack])
  | branch | jump | idle | jmpLong | jmpAbsInd | jmpAbsXInd | jml =>
    exact hs.ensures (by simp [Machine.branch, execJmpLong, execJmpAbsInd, execJmpAbsXInd, execJml, AgreeOnInv,
      AgreeOffStack])
  | flag p hm hx => exact hs.ensures (by simp [flagOp, AgreeOnInv, AgreeOffStack, hm, hx])
  | rmwAcc hf =>
    obtain ⟨hm, hx⟩ := hf s.mw s.am s.p
    exact hs.ensures (by simp [Machine.rmwAcc, AgreeOnInv, AgreeOffStack, hm, hx])
  -- X and Y at the index width
  | loadX o =>
    exact (hs.writeX State.xw_of_x (o.value s.xw s)).ensures (by simp [Machine.loadX, AgreeOnInv, AgreeOffStack])
  | loadY o =>
    exact (hs.writeY State.xw_of_x (o.value s.xw s)).ensures (by simp [Machine.loadY, AgreeOnInv, AgreeOffStack])
  | transferX v => exact (hs.writeX State.xw_of_x v).ensures (by simp [Machine.transferX, AgreeOnInv, AgreeOffStack])
  | transferY v => exact (hs.writeY State.xw_of_x v).ensures (by simp [Machine.transferY, AgreeOnInv, AgreeOffStack])
  | @countX _ f hf =>
    obtain ⟨hm, hx⟩ := hf s.xw s.ix s.p
    exact (hs.writeX State.xw_of_x (f s.xw s.ix s.p).1).ensures
      (by simp [Machine.countX, AgreeOnInv, AgreeOffStack, hm, hx])
  | @countY _ f hf =>
    obtain ⟨hm, hx⟩ := hf s.xw s.iy s.p
    exact (hs.writeY State.xw_of_x (f s.xw s.iy s.p).1).ensures
      (by simp [Machine.countY, AgreeOnInv, AgreeOffStack, hm, hx])
  -- memory
  | store w v m => exact store_inv hs w v m
  | rmwMem hf m => exact rmwMem_inv hs hf m
  | mvn b => exact moveStep_inv hs 1 b
  | mvp b => exact moveStep_inv hs (-1) b
  -- S by the wrapping rule, or put back in page 1
  | pushReg v w => exact (hs.pushN v w.bytes).ensures (by simp [AgreeOnInv, AgreeOffStack])
  | pushByte v => exact (hs.push8 v).ensures (by simp [AgreeOnInv, AgreeOffStack])
  | jsrAbs a => exact (hs.pushN (zextHalf (s.pc + 2)) 2).ensures (by simp [execJsrAbs, AgreeOnInv, AgreeOffStack])
  | rts => exact (hs.pullN 2).ensures (by simp [execRts, AgreeOnInv, AgreeOffStack])
  | pla => exact (hs.pullN s.mw.bytes).ensures (by simp [execPla, AgreeOnInv, AgreeOffStack])
  | plx =>
    have hpull := hs.pullN s.xw.bytes
    exact (hpull.writeX (w := s.xw) (by simpa using State.xw_of_x) (s.pullN .wrapping s.xw.bytes).1).ensures
      (by simp [execPlx, AgreeOnInv, AgreeOffStack])
  | ply =>
    have hpull := hs.pullN s.xw.bytes
    exact (hpull.writeY (w := s.xw) (by simpa using State.xw_of_x) (s.pullN .wrapping s.xw.bytes).1).ensures
      (by simp [execPly, AgreeOnInv, AgreeOffStack])
  | plb => exact hs.pull8.ensures (by simp [execPlb, AgreeOnInv, AgreeOffStack])
  | transferS v =>
    exact (hs.offStack.inv_setSp_wrapS v).ensures (by simp [Machine.transferS, AgreeOnInv, AgreeOffStack])
  | pushWord v len => exact pushWord_inv hs.offStack v len
  | pei off => exact pushWord_inv (hs.offStack.of_agree (by simp [AgreeOffStack])) _ 2
  | pld =>
    exact (hs.offStack.pullN .plain 2).inv_forceSH.ensures
      (by simp [execPld, AgreeOnInv, AgreeOffStack])
  | jsrAbsXInd a =>
    exact (hs.offStack.pushN .plain (zextHalf (s.pc + 2)) 2).inv_forceSH.ensures
      (by simp [execJsrAbsXInd, AgreeOnInv, AgreeOffStack])
  | jsl a =>
    have hfetch : ((s.push8 .plain s.pbr).noteFetch 3).InvOffStack :=
      (hs.offStack.push8 .plain s.pbr).of_agree (by simp [AgreeOffStack])
    exact (hfetch.pushN .plain (zextHalf (s.pc + 3)) 2).inv_forceSH.ensures
      (by simp [execJsl, AgreeOnInv, AgreeOffStack])
  | rtl =>
    exact (hs.offStack.pullN .plain 3).inv_forceSH.ensures
      (by simp [execRtl, AgreeOnInv, AgreeOffStack])
  -- the mode instructions and the returns that write P, which normalise
  | mask b =>
    exact (hs.normalise (u := s.writeP b) (by simp) s.xw).ensures (by simp [maskOp, AgreeOnInv, AgreeOffStack])
  | plp =>
    exact (hs.normalise (u := (s.pull8 .wrapping).2.writeP (s.pull8 .wrapping).1) (by simp) s.xw).ensures
      (by simp [execPlp, AgreeOnInv, AgreeOffStack])
  | xce => exact ensures_next.2 (hs.normalise (by simp) s.xw)
  | xfe => exact ensures_next.2 (hs.normalise (by simp) s.xw)
  | rti => exact ensures_next.2 hs.returnFromInterrupt
  | brk g => exact ensures_next.2 (hs.interrupt .brk (s.pc + 2) true)
  | cop g => exact ensures_next.2 (hs.interrupt .cop (s.pc + 2) true)

/-- Every instruction keeps the invariant. -/
theorem exec_inv {s : State} (h : s.Inv) (i : Instr) : Ensures (exec i s) State.Inv := (exec_runsAs i s).inv h

/-! ## Steps keep the invariant -/

theorem runInstr_inv {s : State} (h : s.Inv) : Ensures (runInstr s) State.Inv :=
  exec_inv (h.of_agree (by simp [AgreeOnInv, AgreeOffStack])) _

/-- Memories of the same space differ at physical addresses only. -/
theorem changedAddrs_lt {bits : Nat} {old new : List Host.Cell}
    (ho : Mem.inSpace bits old) (hn : Mem.inSpace bits new) :
    ∀ a ∈ changedAddrs old new, a < 2 ^ bits := by
  intro a ha
  have hlisted : (∃ p ∈ old, p.1 = a) ∨ ∃ p ∈ new, p.1 = a := by
    rw [changedAddrs, List.mem_filter, List.mem_append, List.mem_filter, List.mem_map, List.mem_map] at ha
    obtain ⟨hmem | ⟨hmem, -⟩, -⟩ := ha
    · exact .inl hmem
    · exact .inr hmem
  obtain ⟨p, hp, rfl⟩ | ⟨p, hp, rfl⟩ := hlisted
  · exact ho p hp
  · exact hn p hp

/-- Choosing between old and new bytes at physical addresses keeps the canonical form, whatever the choices are. -/
theorem mixBytes_ok {bits : Nat} (t : State) (new : List Host.Cell) (l : List Nat) (k : Nat) {m : List Host.Cell}
    (hl : ∀ a ∈ l, a < 2 ^ bits) (hm : Mem.wf m ∧ Mem.inSpace bits m) :
    Mem.wf (mixBytes t new l k m) ∧ Mem.inSpace bits (mixBytes t new l k m) := by
  induction l generalizing k m with
  | nil => exact hm
  | cons a l ih =>
    obtain ⟨hwf, hspace⟩ := hm
    refine ih (k + 1) (fun b hb => hl b (List.mem_cons_of_mem a hb)) ?_
    split
    · exact ⟨Mem.wf_write a _ hwf, Mem.inSpace_write _ (hl a List.mem_cons_self) hspace⟩
    · exact ⟨hwf, hspace⟩

/-- Memory may change to any other memory that is well-formed. -/
theorem State.Inv.setMem {s : State} (h : s.Inv) {m : List Host.Cell} (hm : (s.setMem m).MemOk) : (s.setMem m).Inv :=
  State.inv_iff.2 ⟨⟨hm, h.offStack.flagsOk, h.offStack.indexOk, h.offStack.abortOk⟩, h.stackOk⟩

/-- The ABORT- latch may be cleared, and under the precise model it may be set. -/
theorem State.Inv.setAbort {s : State} (h : s.Inv) {v : Bool} (hv : v = true → s.cfg.abortModel = .precise) :
    (s.setAbort v).Inv :=
  State.inv_iff.2 ⟨⟨h.offStack.memOk, h.offStack.flagsOk, h.offStack.indexOk, hv⟩, h.stackOk⟩

/-- An unsettled step keeps the registers, and each byte of memory is one of two well-formed memories' (R378, R414). -/
theorem State.Inv.unsettled {s t : State} (hs : s.Inv) (ht : t.MemOk) (hcfg : t.cfg = s.cfg) : (unsettled s t).Inv := by
  obtain ⟨-, hnew⟩ := ht
  rw [hcfg] at hnew
  obtain ⟨hwf, hold⟩ := hs.offStack.memOk
  have hmix := mixBytes_ok t t.mem _ 0 (changedAddrs_lt hold hnew) ⟨hwf, hold⟩
  refine (hs.setMem hmix).of_agree ?_
  unfold Machine.unsettled
  simp [AgreeOnInv, AgreeOffStack]

/-- An aborted instruction leaves memory unsettled and sets the ABORT- latch, which the precise model allows. -/
theorem abortedInstr_inv {s : State} (h : s.Inv) (hprecise : s.cfg.abortModel = .precise) :
    Ensures (abortedInstr s) State.Inv := by
  unfold abortedInstr
  split
  next t ht =>
    obtain ⟨hcfg, -⟩ := runInstr_sameEnv s t ht
    have hunsettled := h.unsettled (runInstr_inv h t ht).offStack.memOk hcfg
    have hbus : ((unsettled s t).setBus t.bus).Inv := hunsettled.of_agree (by simp [AgreeOnInv, AgreeOffStack])
    exact ensures_next.2 (hbus.setAbort fun _ => hprecise)
  · exact ensures_fault
  · exact ensures_refused

theorem instrStep_inv {s : State} (h : s.Inv) (inp : Inputs) : Ensures (instrStep inp s) State.Inv := by
  unfold instrStep
  split
  next hab =>
    obtain ⟨-, hprecise⟩ : inp.abort = true ∧ s.cfg.abortModel = .precise := by simpa [abortAsserted] using hab
    exact abortedInstr_inv h hprecise
  · exact runInstr_inv h

theorem hardwareInterrupt_inv {s : State} (h : s.Inv) (src : IntSource) (inp : Inputs) :
    Ensures (hardwareInterrupt src inp s) State.Inv := by
  unfold hardwareInterrupt
  split
  · exact ensures_refused
  · exact ensures_next.2 (h.interrupt src s.pc false)

theorem idleWaiting_inv {s : State} (h : s.Inv) (inp : Inputs) : Ensures (idleWaiting inp s) State.Inv := by
  unfold idleWaiting
  split <;> exact h.ensures (by simp [AgreeOnInv, AgreeOffStack])

/-- The NMI- latch, which a taken interrupt clears, and the run state, which a wake sets, are not in the invariant. -/
theorem chooseStep_inv {s : State} (h : s.Inv) (inp : Inputs) : Ensures (chooseStep inp s) State.Inv := by
  unfold chooseStep
  split_ifs
  · exact ensures_next.2 h
  · exact hardwareInterrupt_inv (h.setAbort (v := false) nofun) .abort inp
  · exact hardwareInterrupt_inv (s := s.setNmi false) h .nmi inp
  · exact hardwareInterrupt_inv h .irq inp
  · exact instrStep_inv (s := s.setRun .running) h inp
  · exact idleWaiting_inv h inp
  · exact instrStep_inv h inp

/-- Folding the inputs into the NMI- latch and emptying the bus record is nothing to the invariant. -/
theorem State.Inv.atBoundary {s : State} (h : s.Inv) : (atBoundary s).Inv := by
  refine h.of_agree ?_
  unfold Machine.atBoundary latchNmi
  split <;> simp [AgreeOnInv, AgreeOffStack]

theorem resetMidStep_inv {s : State} (h : s.Inv) : Ensures (resetMidStep s) State.Inv := by
  unfold resetMidStep
  split
  next t ht =>
    obtain ⟨hcfg, -⟩ := chooseStep_sameSetting _ _ t ht
    have hmem := (chooseStep_inv h.atBoundary _ t ht).offStack.memOk
    exact ensures_next.2 (State.inv_resetSequence (h.atBoundary.unsettled hmem hcfg).offStack.memOk)
  · exact ensures_fault
  · exact ensures_refused

/-- Settles O5: the kinds of step by R367, each from what the shared operations do to the invariant; RES- first. -/
theorem stepKeepsInvariant : Obligations.StepKeepsInvariant := by
  intro s t h
  have hstep : Ensures (step s) State.Inv := by
    unfold step boundary
    split
    · exact chooseStep_inv h.atBoundary (currentInputs s)
    · exact ensures_next.2 (State.inv_resetSequence h.atBoundary.offStack.memOk)
    · exact resetMidStep_inv h
  exact hstep t

/-- Settles O6: memory is empty, and the flags, SH, the index registers and the latch hold their reset values. -/
theorem resetStateMeetsInvariant : Obligations.ResetStateMeetsInvariant :=
  State.inv_iff.2 ⟨⟨State.memOk_reset, fun _ => ⟨rfl, rfl⟩, fun _ => ⟨by decide, by decide⟩, nofun⟩, fun _ => rfl⟩

/-! ## The writers of PBR, the mode bits, D, DBR and the run state -/

/-- The instructions that may write PBR (R31). -/
def MayWritePbr (i : Instr) : Prop :=
  i = .rti ∨ i = .rtl ∨ (∃ a, i = .jml a) ∨ (∃ a, i = .jsl a) ∨ (∃ a, i = .jmpLong a) ∨ (∃ g, i = .brk g) ∨
    ∃ g, i = .cop g

/-- The instructions that may write DBR (R39). -/
def MayWriteDbr (i : Instr) : Prop :=
  i = .plb ∨ (∃ b, i = .mvn b) ∨ (∃ b, i = .mvp b) ∨ (∃ g, i = .brk g) ∨ ∃ g, i = .cop g

/-- The instructions that may write the run state (R47). -/
def MayWriteRun (i : Instr) : Prop :=
  i = .wai ∨ i = .stp ∨ (∃ g, i = .brk g) ∨ ∃ g, i = .cop g

/-- Whatever instruction `i` has changed between `s` and `t` of PBR, E16, E8, D, DBR and the run state, it is one of
those that may. -/
def ControlFrame (i : Instr) (s t : State) : Prop :=
  (t.pbr ≠ s.pbr → MayWritePbr i) ∧ (t.e16 ≠ s.e16 → i = .xfe) ∧ (t.e8 ≠ s.e8 → i = .xce ∨ i = .xfe) ∧
    (t.dr ≠ s.dr → i = .tcd ∨ i = .pld) ∧ (t.dbr ≠ s.dbr → MayWriteDbr i) ∧ (t.run ≠ s.run → MayWriteRun i)

theorem moveStep_controlFrame {i : Instr} (hi : MayWriteDbr i) (d : Word) (b : BlockBanks) (s : State) :
    Ensures (moveStep d b s) (ControlFrame i s) := by
  obtain ⟨v, hv⟩ := moveBank_eq_setDbr b s
  unfold moveStep
  rw [hv]
  split <;> simp [ControlFrame, hi]

/-- The cases that name an instruction are those of the writers; every shared case keeps all six pieces. -/
theorem RunsAs.controlFrame {s : State} {i : Instr} {o : Out} (h : RunsAs s i o) : Ensures o (ControlFrame i s) := by
  cases h with
  | add | sub | logic | compare | bitMem | bitImm =>
    simp [addOp, subOp, logicOp, compareOp, Machine.bitMem, bitImmediate, ControlFrame]
  | loadA | loadX | loadY | store =>
    simp [Machine.loadA, Machine.loadX, Machine.loadY, Machine.store, ControlFrame]
  | transferA | transferX | transferY | transferS | xba =>
    simp [Machine.transferA, Machine.transferX, Machine.transferY, Machine.transferS, execXba, ControlFrame]
  | rmwMem | rmwAcc | countX | countY =>
    simp [Machine.rmwMem, Machine.rmwAcc, Machine.countX, Machine.countY, ControlFrame]
  | flag | mask | xce | xfe => simp [flagOp, maskOp, execXce, execXfe, ControlFrame]
  | pushWord | pushReg | pushByte | pei => simp [Machine.pushWord, execPei, ControlFrame]
  | pla | plx | ply | plp | plb | pld | tcd =>
    simp [execPla, execPlx, execPly, execPlp, execPlb, execPld, execTcd, ControlFrame, MayWriteDbr]
  | branch | jump | idle | jmpAbsInd | jmpAbsXInd | jsrAbs | jsrAbsXInd | rts =>
    simp [Machine.branch, execJmpAbsInd, execJmpAbsXInd, execJsrAbs, execJsrAbsXInd, execRts, ControlFrame]
  | jmpLong | jml | jsl | rtl | rti =>
    simp [execJmpLong, execJml, execJsl, execRtl, execRti, ControlFrame, MayWritePbr]
  | brk | cop | wai | stp =>
    simp [execBrk, execCop, execWai, execStp, ControlFrame, MayWritePbr, MayWriteDbr, MayWriteRun]
  | mvn b => exact moveStep_controlFrame (.inr (.inl ⟨b, rfl⟩)) 1 b s
  | mvp b => exact moveStep_controlFrame (.inr (.inr (.inl ⟨b, rfl⟩))) (-1) b s

theorem exec_controlFrame (i : Instr) (s : State) : Ensures (exec i s) (ControlFrame i s) :=
  (exec_runsAs i s).controlFrame

@[simp] theorem State.interrupt_pbr (src : IntSource) (ret : Half) (b : Bool) (s : State) :
    (s.interrupt src ret b).pbr = 0 := by
  unfold State.interrupt
  split <;> rfl

@[simp] theorem State.resetSequence_pbr (s : State) : s.resetSequence.pbr = 0 := rfl

/-- Settles O8: the writers are read off the frame of `exec`; interrupts and reset clear PBR whatever it was. -/
theorem programBankWriters : Obligations.ProgramBankWriters := by
  refine ⟨fun i s t h => ?_, State.interrupt_pbr, State.resetSequence_pbr⟩
  obtain ⟨hpbr, -⟩ := exec_controlFrame i s t h
  exact hpbr

/-- Settles O9: the writers are read off the frame of `exec`. -/
theorem modeAndBankWriters : Obligations.ModeAndBankWriters := by
  intro i s t h
  obtain ⟨-, hrest⟩ := exec_controlFrame i s t h
  exact hrest

/-! ## Pushes of one byte -/

theorem byteOfBits_eq_toByte (p : Status) : byteOfBits p.n p.v p.m p.x p.d p.i p.z p.c = p.toByte := by
  obtain ⟨n, v, m, x, d, i, z, c⟩ := p
  revert n v m x d i z c
  decide

/-- The byte that the model pushes for P is the one the statements name (R36, R373). -/
theorem State.statusByte_eq_pushedP (s : State) (brk : Bool) : s.statusByte brk = s.pushedP brk := by
  rw [State.statusByte, State.pushedP]
  cases s.emu8 with
  | true => exact byteOfBits_eq_toByte { s.p with m := true, x := brk }
  | false => exact byteOfBits_eq_toByte s.p

/-- A push moves S down by one, inside page 1 in `emu8` (R80). -/
theorem State.push8_spMoves (v : Byte) (s : State) : spMoves s (s.push8 .wrapping v) 65535 := by
  rw [spMoves, State.push8_sp, State.stackPtr, State.wrapS]
  split
  · rw [pageOne_toNat, half_sub_one_toNat]
    omega
  · exact half_sub_one_toNat s.sp

/-- The result of every instruction that pushes one byte. -/
theorem pushByte_result (v : Byte) (s : State) :
    ∃ t, Host.Outcome.next ((s.push8 .wrapping v).advance 1) = (.next t : Out) ∧ pushedBytes s t .wrapping [v] ∧
      spMoves s t 65535 ∧ pcMoves s t 1 ∧ unchangedBut [.mem, .sp, .pc] s t := by
  have hpushed : Pushed s (s.push8 .wrapping v) .wrapping [v] := (Pushed.refl s .wrapping).push8 (by decide) v
  exact ⟨_, rfl, hpushed.bytes, s.push8_spMoves v, advance_pcMoves 1 (s.push8 .wrapping v),
    (push8_frame .wrapping v s).trans (advance_frame 1 _)⟩

/-- Settles O38: the three instructions differ in the byte they push. -/
theorem pushByteResult : Obligations.PushByteResult := by
  rintro i s v (⟨rfl, rfl⟩ | ⟨rfl, rfl⟩ | ⟨rfl, rfl⟩)
  · exact pushByte_result s.dbr s
  · exact pushByte_result s.pbr s
  · rw [State.statusByte_eq_pushedP]
    exact pushByte_result (s.pushedP true) s

/-! ## Widths -/

/-- Settles O13: the table of R34 row by row, over M, Xf and the two mode bits. -/
theorem widthTable : Obligations.WidthTable := by
  intro s
  constructor
  · rw [State.mw]
    cases s.p.m <;> cases s.e16 <;> cases s.e8 <;> rfl
  · rw [State.xw]
    cases s.p.x <;> cases s.e16 <;> rfl

/-! ## The mode exchanges -/

/-- The index width is 16 bits exactly while Xf is 0 and E16 is 1 (R34). -/
theorem State.xw_eq_w16_iff (s : State) : s.xw = .w16 ↔ s.p.x = false ∧ s.e16 = true := by
  rw [State.xw]
  cases s.p.x <;> cases s.e16 <;> decide

theorem State.normalise_stackForced (old : Width) (s : State) : stackForced s (s.normalise old) := by
  rw [stackForced, State.normalise_sp, State.normalise_emu8]
  split
  · exact pageOne_toNat s.sp
  · rfl

/-- Without a widening from 16 to 32 bits the index registers follow Xf (R25, R320). -/
theorem State.normalise_indexForced {old : Width} {s : State} (h : ¬(old = .w16 ∧ s.e16 = false ∧ s.p.x = false)) :
    indexForced s (s.normalise old) := by
  obtain ⟨hx, hy, -⟩ := State.normalise_index old s h
  refine ⟨fun hf => ?_, fun hf => ?_⟩
  · rw [hx, hy, if_pos hf, if_pos hf]
    exact ⟨Width.trunc_toNat .w8 s.x, Width.trunc_toNat .w8 s.y⟩
  · simp [hx, hy, hf]

/-- At a widening from 16 to 32 bits only the high halves of X and Y are written, as `IDX_HIGH_DRAW` says (R27). -/
theorem State.normalise_widened {s : State} (h16 : s.e16 = false) (hf : s.p.x = false) :
    (s.normalise .w16).x.toNat % 65536 = s.x.toNat % 65536 ∧ (s.normalise .w16).y.toNat % 65536 = s.y.toNat % 65536 ∧
      (s.cfg.idxHigh = .zero → (s.normalise .w16).x.toNat < 65536 ∧ (s.normalise .w16).y.toNat < 65536) ∧
      (s.cfg.idxHigh = .preserved → (s.normalise .w16).x = s.x ∧ (s.normalise .w16).y = s.y) := by
  have hemu8 : s.normEmu8 = s := by simp [State.normEmu8, State.emu8, h16]
  have hindex : s.normIndex = s := by simp [State.normIndex, hf]
  have hxw : s.xw = .w32 := by rw [State.xw, h16, hf]; rfl
  rw [State.normalise, hemu8, hindex, State.normWiden, if_pos ⟨rfl, hxw⟩]
  cases hi : s.cfg.idxHigh with
  | draw => exact ⟨Width.merge_mod .w16 _ s.x, Width.merge_mod .w16 _ s.y, nofun, nofun⟩
  | zero =>
    have hX := Width.trunc_toNat .w16 s.x
    have hY := Width.trunc_toNat .w16 s.y
    simp only [Width.bits] at hX hY
    exact ⟨by simp [hX], by simp [hY], fun _ => ⟨Width.trunc_lt .w16 s.x, Width.trunc_lt .w16 s.y⟩, nofun⟩
  | preserved => exact ⟨rfl, rfl, nofun, fun _ => ⟨rfl, rfl⟩⟩

/-- M and Xf after the normalisation: 1 in `emu8`, and as they were elsewhere (R320). -/
theorem State.normalise_p_or (old : Width) (s : State) :
    (s.normalise old).p = { s.p with m := s.p.m || s.emu8, x := s.p.x || s.emu8 } := by
  rw [State.normalise_p]
  cases s.emu8 <;> simp

/-- The exchange of XCE, before the normalisation (R321). -/
def State.exchangeC (s : State) : State := (s.setP { s.p with c := s.e8 }).setModes s.p.c s.e16

theorem exec_xce (s : State) : exec .xce s = .next ((s.exchangeC.normalise s.xw).advance 1) := rfl

/-- The exchange of XFE, before the normalisation (R322). -/
def State.exchangeCV (s : State) : State := (s.setP { s.p with c := s.e8, v := s.e16 }).setModes s.p.c s.p.v

theorem exec_xfe (s : State) : exec .xfe s = .next ((s.exchangeCV.normalise s.xw).advance 1) := rfl

/-- What follows either exchange touches, beside what the exchange has written, only what a mode write touches. -/
theorem exchange_frame {s u : State} (h : unchangedBut [.p, .modes] s u) :
    unchangedBut [.free, .p, .modes, .x, .y, .sp, .pc] s ((u.normalise s.xw).advance 1) :=
  ((h.trans (normalise_frame s.xw u)).trans (advance_frame 1 _)).mono (by decide)

theorem exchange_pcMoves {s u : State} (h : u.pc = s.pc) : pcMoves s ((u.normalise s.xw).advance 1) 1 := by
  rw [pcMoves, State.advance_pc, State.normalise_pc, h]

/-- XCE keeps E16, so it never widens the index from 16 to 32 bits. -/
theorem State.exchangeC_not_widened (s : State) :
    ¬(s.xw = .w16 ∧ s.exchangeC.e16 = false ∧ s.exchangeC.p.x = false) := by
  rintro ⟨hxw, h16, -⟩
  exact Bool.false_ne_true (h16.symm.trans (s.xw_eq_w16_iff.1 hxw).2)

/-- XFE widens the index from 16 to 32 bits exactly when it clears E16 while Xf is 0. -/
theorem State.exchangeCV_widened_iff (s : State) :
    (s.xw = .w16 ∧ s.exchangeCV.e16 = false ∧ s.exchangeCV.p.x = false) ↔
      s.e16 = true ∧ s.p.v = false ∧ s.p.x = false := by
  rw [State.xw_eq_w16_iff]
  constructor
  · rintro ⟨⟨hx, h16⟩, hv, -⟩
    exact ⟨h16, hv, hx⟩
  · rintro ⟨h16, hv, hx⟩
    exact ⟨⟨hx, h16⟩, hv, hx⟩

/-- Settles O50: either exchange is followed by the normalisation; only XFE can widen the index. -/
theorem modeExchangeResult : Obligations.ModeExchangeResult := by
  refine fun s => ⟨⟨_, exec_xce s, State.normalise_e8 .., State.normalise_e16 .., State.normalise_p_or .., ?_⟩,
    ⟨_, exec_xfe s, State.normalise_e8 .., State.normalise_e16 .., State.normalise_p_or .., ?_⟩⟩
  · obtain ⟨-, -, hfree⟩ := State.normalise_index s.xw s.exchangeC s.exchangeC_not_widened
    have hframe := exchange_frame ((setP_frame { s.p with c := s.e8 } s).trans (setModes_frame s.p.c s.e16 _))
    exact ⟨State.normalise_indexForced s.exchangeC_not_widened, State.normalise_stackForced s.xw s.exchangeC,
      exchange_pcMoves rfl, hframe.remove hfree⟩
  · have hframe :=
      exchange_frame ((setP_frame { s.p with c := s.e8, v := s.e16 } s).trans (setModes_frame s.p.c s.p.v _))
    refine ⟨?_, State.normalise_stackForced s.xw s.exchangeCV, exchange_pcMoves rfl, hframe.mono (by decide)⟩
    split
    next hwiden =>
      obtain ⟨hxw, h16, hf⟩ := s.exchangeCV_widened_iff.2 hwiden
      rw [hxw]
      exact State.normalise_widened h16 hf
    next hkeep =>
      have hnarrow := mt s.exchangeCV_widened_iff.1 hkeep
      obtain ⟨-, -, hfree⟩ := State.normalise_index s.xw s.exchangeCV hnarrow
      exact ⟨State.normalise_indexForced hnarrow, hfree⟩

end Sys2Proof.Machine

/-! # Proofs: memory

Where each byte of an access stands (R73, R76); that reads and writes are little-endian and the order of their bytes on
the bus (R75, R77, R78); and that the bus record of every instruction accounts for what it does to memory (R78, R88,
R89). -/

namespace Sys2Proof.Machine

/-! ## The address of each byte of an access -/

theorem State.byteAddr_lin (s : State) (a : Word) (i : Nat) :
    s.byteAddr ⟨a, .lin⟩ i = if s.native then a + BitVec.ofNat 32 i else low24 (a + BitVec.ofNat 32 i) := rfl

theorem State.byteAddr_bank0 (s : State) (a : Word) (i : Nat) :
    s.byteAddr ⟨a, .bank0⟩ i = bankAddr 0 (lowHalf a + BitVec.ofNat 16 i) := rfl

theorem State.byteAddr_page (s : State) (a : Word) (i : Nat) :
    s.byteAddr ⟨a, .page⟩ i = bankAddr 0 (joinBytes (halfHi (lowHalf a)) (lowByte a + BitVec.ofNat 8 i)) := rfl

theorem State.byteAddr_pbank (s : State) (a : Word) (i : Nat) :
    s.byteAddr ⟨a, .pbank⟩ i = bankAddr s.pbr (lowHalf a + BitVec.ofNat 16 i) := rfl

theorem State.byteAddr_lin_toNat (s : State) (a : Word) (i : Nat) :
    (s.byteAddr ⟨a, .lin⟩ i).toNat = if s.native then (a.toNat + i) % 2 ^ 32 else (a.toNat + i) % 2 ^ 24 := by
  rw [State.byteAddr_lin]
  split
  · rw [BitVec.toNat_add, BitVec.toNat_ofNat]
    omega
  · rw [low24_toNat, BitVec.toNat_add, BitVec.toNat_ofNat]
    omega

theorem lowHalf_add_toNat (a : Word) (i : Nat) :
    (lowHalf a + BitVec.ofNat 16 i).toNat = (a.toNat % 65536 + i) % 65536 := by
  rw [BitVec.toNat_add, lowHalf_toNat, BitVec.toNat_ofNat]
  omega

theorem zero_byte_toNat : (0 : Byte).toNat = 0 := rfl

theorem State.byteAddr_bank0_toNat (s : State) (a : Word) (i : Nat) :
    (s.byteAddr ⟨a, .bank0⟩ i).toNat = (a.toNat % 65536 + i) % 65536 := by
  rw [State.byteAddr_bank0, bankAddr_toNat, lowHalf_add_toNat, zero_byte_toNat, Nat.zero_mul, Nat.zero_add]

theorem State.byteAddr_page_toNat (s : State) (a : Word) (i : Nat) :
    (s.byteAddr ⟨a, .page⟩ i).toNat = a.toNat / 256 % 256 * 256 + (a.toNat % 256 + i) % 256 := by
  rw [State.byteAddr_page, bankAddr_toNat, joinBytes_toNat, halfHi_toNat, lowHalf_toNat, BitVec.toNat_add,
    lowByte_toNat, BitVec.toNat_ofNat, zero_byte_toNat]
  omega

theorem State.byteAddr_pbank_toNat (s : State) (a : Word) (i : Nat) :
    (s.byteAddr ⟨a, .pbank⟩ i).toNat = s.pbr.toNat * 65536 + (a.toNat % 65536 + i) % 65536 := by
  rw [State.byteAddr_pbank, bankAddr_toNat, lowHalf_add_toNat]

/-- Settles O14: one wrap kind at a time; the physical address is the effective one cut to `ADDR_BITS`. -/
theorem byteAddressOfAccess : Obligations.ByteAddressOfAccess := fun s a i _ =>
  ⟨s.byteAddr_lin_toNat a i, s.byteAddr_bank0_toNat a i, s.byteAddr_page_toNat a i, s.byteAddr_pbank_toNat a i,
    fun _ => rfl⟩

/-! ## Memory is little-endian -/

/-- Writing the bytes below `n`, in any order, stores the value and touches nothing else of memory (R78). -/
theorem State.writeBytes_storedAt (s : State) (ea : EA) {n : Nat} (hn : n ≤ 4) (v : Word) {l : List Nat}
    (hl : ∀ i, i ∈ l ↔ i < n) : storedAt s (s.writeBytes ea v l) ea n v := by
  have hlt : ∀ i ∈ l, i < 4 := fun i hi => Nat.lt_of_lt_of_le ((hl i).1 hi) hn
  exact ⟨fun k hk => State.read_writeBytes ea v l s hlt ((hl k).2 hk),
    fun a ha => State.read_writeBytes_other ea v l s fun i hi => ha i ((hl i).1 hi)⟩

theorem State.memWrite_storedAt (s : State) (ea : EA) {n : Nat} (hn : n ≤ 4) (v : Word) :
    storedAt s (s.memWrite ea n v) ea n v :=
  s.writeBytes_storedAt ea hn v fun _ => List.mem_range

theorem State.memWriteBack_storedAt (s : State) (ea : EA) {n : Nat} (hn : n ≤ 4) (v : Word) :
    storedAt s (s.memWriteBack ea n v) ea n v :=
  s.writeBytes_storedAt ea hn v fun _ => List.mem_reverse.trans List.mem_range

/-- A read of what was stored, at the width of the store or a narrower one, sees its low bytes (R75, R89). -/
theorem State.memRead_memWrite_toNat (s : State) (ea : EA) {n : Nat} (hn : n ≤ 4) (v : Word) {k : Nat}
    (hk : k ≤ n) : ((s.memWrite ea n v).memRead ea k).toNat = v.toNat % 256 ^ k := by
  obtain ⟨hstored, -⟩ := s.memWrite_storedAt ea hn v
  have hbyte (j : Nat) (hj : j < k) :
      (s.memWrite ea n v).read8 ((s.memWrite ea n v).byteAddr ea j) = byteOf v j := by
    rw [State.read8_byteAddr, State.physByte_congr (s := s) (by simp) (by simp) (by simp)]
    exact hstored j (by omega)
  rw [State.memRead_toNat _ ea (by omega), littleEndian_congr hbyte, littleEndian_byteOf]

/-- Settles O15: the value of a read is the number of its bytes, and a write puts each byte at its own address. -/
theorem memoryIsLittleEndian : Obligations.MemoryIsLittleEndian := fun s ea _ v hn =>
  ⟨s.memRead_toNat ea hn, s.memWrite_storedAt ea hn v, s.memWriteBack_storedAt ea hn v,
    fun _ hk => s.memRead_memWrite_toNat ea hn v hk⟩

/-! ## The order of bytes on the bus -/

/-- The bus record of a write holds its bytes in the order in which they are written (R78, R88). -/
theorem State.writeBytes_bus (ea : EA) (v : Word) (l : List Nat) (s : State) :
    (s.writeBytes ea v l).bus = s.bus ++ l.map fun k => ⟨.dataWrite, s.physByte ea k, byteOf v k⟩ := by
  induction l generalizing s with
  | nil => exact (List.append_nil s.bus).symm
  | cons i l ih =>
    -- writing byte `i` leaves the addresses of the bytes still to come
    have haddr (k : Nat) : (s.write8 .dataWrite (s.byteAddr ea i) (byteOf v i)).physByte ea k = s.physByte ea k :=
      State.physByte_congr (State.write8_cfg ..) (State.write8_e16 ..) (State.write8_pbr ..) ea k
    rw [State.writeBytes, ih]
    simp only [haddr]
    exact List.append_assoc ..

/-- The bus record of a read holds its bytes, byte 0 first (R77, R88). -/
theorem State.noteReads_bus (k : BusKind) (ea : EA) (n : Nat) (s : State) :
    (s.noteReads k ea n).bus =
      s.bus ++ (List.range n).map fun i => ⟨k, s.physByte ea i, Mem.read s.mem (s.physByte ea i)⟩ := rfl

/-- Settles O12: a store writes in the order of its byte numbers, a write-back in the reverse order. -/
theorem orderOnTheBus : Obligations.OrderOnTheBus := by
  intro s ea n v _
  refine ⟨State.writeBytes_bus ea v _ s, ?_, fun k hk => ?_⟩
  · rw [State.memWriteBack, State.writeBytes_bus, List.map_reverse]
  · rw [State.noteReads_bus, List.getElem?_append_right (Nat.le_add_right ..)]
    simp [hk]

/-! ## The bus record accounts for memory -/

theorem replay_append (m : List Host.Cell) (l l' : List BusEvent) : replay m (l ++ l') = replay (replay m l) l' := by
  induction l generalizing m with
  | nil => rfl
  | cons e l ih => exact ih _

/-- Accesses that do not write leave memory as it was (R86). -/
theorem replay_of_reads (m : List Host.Cell) {l : List BusEvent} (h : ∀ e ∈ l, e.kind.isWrite = false) :
    replay m l = m := by
  induction l with
  | nil => rfl
  | cons e l ih =>
    rw [replay, h e List.mem_cons_self]
    exact ih fun e' he' => h e' (List.mem_cons_of_mem e he')

/-- Between `s` and `t` the bus record has grown by accesses whose writes, in order, make the memory of `t` from that
of `s`. -/
def Accounted (s t : State) : Prop := ∃ events, t.bus = s.bus ++ events ∧ t.mem = replay s.mem events

/-- `t` has the bus record and the memory of `s`. -/
def SameRecord (s t : State) : Prop := t.bus = s.bus ∧ t.mem = s.mem

theorem Accounted.refl (s : State) : Accounted s s := ⟨[], (List.append_nil s.bus).symm, rfl⟩

theorem Accounted.trans {s t u : State} (h : Accounted s t) (k : Accounted t u) : Accounted s u := by
  obtain ⟨l, hbus, hmem⟩ := h
  obtain ⟨l', kbus, kmem⟩ := k
  exact ⟨l ++ l', by rw [kbus, hbus, List.append_assoc], by rw [kmem, hmem, replay_append]⟩

theorem Accounted.of_same {s t u : State} (h : Accounted s t) (e : SameRecord t u) : Accounted s u := by
  obtain ⟨l, hbus, hmem⟩ := h
  obtain ⟨ebus, emem⟩ := e
  exact ⟨l, ebus.trans hbus, emem.trans hmem⟩

/-- An instruction is accounted for when its answer has the record and the memory of a state that is. -/
theorem Accounted.ensures {s t : State} {o : Out} (h : Accounted s t) (e : Ensures o (SameRecord t)) :
    Ensures o (Accounted s) := e.mono fun _ => h.of_same

theorem write8_accounted {k : BusKind} (hk : k.isWrite = true) (a : Word) (v : Byte) (s : State) :
    Accounted s (s.write8 k a v) :=
  ⟨[⟨k, s.phys a, v⟩], rfl, by simp [replay, hk, State.write8]⟩

theorem noteRead_accounted {k : BusKind} (hk : k.isWrite = false) (a : Word) (s : State) :
    Accounted s (s.noteRead k a) :=
  ⟨[⟨k, s.phys a, s.read8 a⟩], rfl, (replay_of_reads s.mem (by simpa using hk)).symm⟩

theorem noteReads_accounted {k : BusKind} (hk : k.isWrite = false) (ea : EA) (n : Nat) (s : State) :
    Accounted s (s.noteReads k ea n) :=
  ⟨_, rfl, (replay_of_reads s.mem (by simp [hk])).symm⟩

theorem noteFetch_accounted (i : Nat) (s : State) : Accounted s (s.noteFetch i) :=
  noteRead_accounted (by split <;> rfl) _ s

theorem writeBytes_accounted (ea : EA) (v : Word) (l : List Nat) (s : State) : Accounted s (s.writeBytes ea v l) := by
  induction l generalizing s with
  | nil => exact .refl s
  | cons i l ih => exact (write8_accounted rfl _ _ s).trans (ih _)

theorem memWrite_accounted (ea : EA) (n : Nat) (v : Word) (s : State) : Accounted s (s.memWrite ea n v) :=
  writeBytes_accounted ea v _ s

theorem memWriteBack_accounted (ea : EA) (n : Nat) (v : Word) (s : State) : Accounted s (s.memWriteBack ea n v) :=
  writeBytes_accounted ea v _ s

theorem push8_accounted (r : StackRule) (v : Byte) (s : State) : Accounted s (s.push8 r v) :=
  write8_accounted rfl _ v s

theorem pushN_accounted (r : StackRule) (v : Word) (n : Nat) (s : State) : Accounted s (s.pushN r v n) := by
  induction n generalizing s with
  | zero => exact .refl s
  | succ n ih => exact (push8_accounted r (byteOf v n) s).trans (ih _)

theorem pull8_accounted (r : StackRule) (s : State) : Accounted s (s.pull8 r).2 :=
  noteRead_accounted (s := s.setSp (s.stackPtr r (s.sp + 1))) rfl _

theorem pullN_accounted (r : StackRule) (n : Nat) (s : State) : Accounted s (s.pullN r n).2 := by
  induction n with
  | zero => exact .refl s
  | succ n ih => exact ih.trans (pull8_accounted r _)

theorem notePointer_accounted (m : Mode) (s : State) : Accounted s (m.notePointer s) := by
  unfold Mode.notePointer
  split
  · exact .refl s
  · exact noteReads_accounted rfl _ _ s

theorem noteData_accounted (m : Mode) (n : Nat) (s : State) : Accounted s (m.noteData n s) :=
  (notePointer_accounted m s).trans (noteReads_accounted rfl (m.ea s) n _)

theorem note_accounted (w : Width) (o : Operand) (s : State) : Accounted s (o.note w s) := by
  cases o with
  | imm v => exact .refl s
  | mem m => exact noteData_accounted m w.bytes s

theorem pushFrame_accounted (ret : Half) (brk : Bool) (s : State) : Accounted s (s.pushFrame ret brk) := by
  have hframe (u : State) : Accounted u ((u.pushN .wrapping (zextHalf ret) 2).push8 .wrapping (s.pushedP brk)) :=
    (pushN_accounted .wrapping _ 2 u).trans (push8_accounted .wrapping _ _)
  unfold State.pushFrame
  split
  · exact hframe s
  · exact (push8_accounted .wrapping s.pbr s).trans (hframe _)

theorem enterVector_accounted (v : Half) (s : State) : Accounted s (s.enterVector v) :=
  (noteReads_accounted rfl (vectorEA v) 2 s).of_same ⟨rfl, rfl⟩

theorem interrupt_accounted (src : IntSource) (ret : Half) (brk : Bool) (s : State) :
    Accounted s (s.interrupt src ret brk) := by
  have hvector {u : State} (hu : SameRecord (s.pushFrame ret brk) u) :
      Accounted s ((u.enterVector (s.vector src)).setRun .running) :=
    (((pushFrame_accounted ret brk s).of_same hu).trans (enterVector_accounted _ u)).of_same ⟨rfl, rfl⟩
  unfold State.interrupt
  split <;> exact hvector ⟨rfl, rfl⟩

theorem returnFromInterrupt_accounted (s : State) : Accounted s s.returnFromInterrupt := by
  have hpc (u : State) : Accounted u ((u.pullN .wrapping 2).2.setPc (lowHalf (u.pullN .wrapping 2).1)) :=
    (pullN_accounted .wrapping 2 u).of_same ⟨rfl, rfl⟩
  have hstatus : Accounted s ((s.pull8 .wrapping).2.writeP (s.pull8 .wrapping).1) :=
    (pull8_accounted .wrapping s).of_same ⟨rfl, rfl⟩
  have hreturn := hstatus.trans (hpc _)
  unfold State.returnFromInterrupt
  split
  · exact hreturn.of_same (by simp [SameRecord])
  · exact (hreturn.trans (pull8_accounted .wrapping _)).of_same (by simp [SameRecord])

/-- A block move reads a byte and then writes it (R332). -/
theorem moveStep_accounted (d : Word) (b : BlockBanks) (s : State) : Ensures (moveStep d b s) (Accounted s) := by
  obtain ⟨v, hv⟩ := moveBank_eq_setDbr b s
  have hread : Accounted s ((s.setDbr v).noteReads .dataRead (moveSource b s) 1) :=
    noteReads_accounted (s := s.setDbr v) rfl _ 1
  refine (hread.trans (memWrite_accounted (moveDest b s) 1 (s.memRead (moveSource b s) 1) _)).ensures ?_
  unfold moveStep
  rw [hv]
  split <;> simp [SameRecord]

theorem pushWord_accounted (v : Half) (len : Nat) (s : State) : Ensures (pushWord v len s) (Accounted s) :=
  (pushN_accounted .plain (zextHalf v) 2 s).ensures (by simp [pushWord, SameRecord])

/-- Every case of `RunsAs` is accounted for: its accesses are those of shared operations, and what it does beside them
touches neither memory nor the record. -/
theorem RunsAs.accounted {s : State} {i : Instr} {o : Out} (h : RunsAs s i o) : Ensures o (Accounted s) := by
  cases h with
  -- the operand is read
  | add o | sub o | logic _ o =>
    exact (note_accounted s.mw o s).ensures (by simp [addOp, subOp, logicOp, SameRecord])
  | loadA o => exact (note_accounted s.mw o s).ensures (by simp [Machine.loadA, SameRecord])
  | loadX o | loadY o => exact (note_accounted s.xw o s).ensures (by simp [Machine.loadX, Machine.loadY, SameRecord])
  | compare w reg o => exact (note_accounted w o s).ensures (by simp [compareOp, SameRecord])
  | bitMem m => exact (noteData_accounted m s.mw.bytes s).ensures (by simp [Machine.bitMem, SameRecord])
  -- memory is written
  | store w v m =>
    exact ((notePointer_accounted m s).trans (memWrite_accounted (m.ea s) w.bytes v _)).ensures
      (by simp [Machine.store, SameRecord])
  | @rmwMem _ f _ m =>
    exact ((noteData_accounted m s.mw.bytes s).trans
      (memWriteBack_accounted (m.ea s) s.mw.bytes (f s.mw (s.memRead (m.ea s) s.mw.bytes) s.p).1 _)).ensures
      (by simp [Machine.rmwMem, SameRecord])
  | mvn b => exact moveStep_accounted 1 b s
  | mvp b => exact moveStep_accounted (-1) b s
  -- nothing but instruction bytes is accessed
  | bitImm | transferA | transferX | transferY | transferS | rmwAcc | countX | countY | flag | mask =>
    exact (Accounted.refl s).ensures (by simp [bitImmediate, Machine.transferA, Machine.transferX, Machine.transferY,
      Machine.transferS, Machine.rmwAcc, Machine.countX, Machine.countY, flagOp, maskOp, SameRecord])
  | branch | jump | idle | jmpLong | wai | stp | tcd | xba | xce | xfe =>
    exact (Accounted.refl s).ensures (by simp [Machine.branch, execJmpLong, execWai, execStp, execTcd, execXba,
      execXce, execXfe, SameRecord])
  -- a pointer is read
  | jmpAbsInd a =>
    exact (noteReads_accounted (k := .pointerRead) rfl (bank0Pointer a) 2 s).ensures
      (by simp [execJmpAbsInd, SameRecord])
  | jmpAbsXInd a =>
    exact (noteReads_accounted (k := .pointerRead) rfl (s.progPointer a) 2 s).ensures
      (by simp [execJmpAbsXInd, SameRecord])
  | jml a =>
    exact (noteReads_accounted (k := .pointerRead) rfl (bank0Pointer a) 3 s).ensures (by simp [execJml, SameRecord])
  -- the stack is written
  | pushWord v len => exact pushWord_accounted v len s
  | pei off => exact (pushWord_accounted _ 2 _).mono fun _ => (noteReads_accounted rfl (s.dpLinear off) 2 s).trans
  | pushReg v w => exact (pushN_accounted .wrapping v w.bytes s).ensures (by simp [SameRecord])
  | pushByte v => exact (push8_accounted .wrapping v s).ensures (by simp [SameRecord])
  | jsrAbs a =>
    exact (pushN_accounted .wrapping (zextHalf (s.pc + 2)) 2 s).ensures (by simp [execJsrAbs, SameRecord])
  | jsrAbsXInd a =>
    have hfetch := (pushN_accounted .plain (zextHalf (s.pc + 2)) 2 s).trans (noteFetch_accounted 2 _)
    exact (hfetch.trans (noteReads_accounted (k := .pointerRead) rfl _ 2 _)).ensures
      (by simp only [execJsrAbsXInd, ensures_next]; exact ⟨rfl, rfl⟩)
  | jsl a =>
    have hfetch := (push8_accounted .plain s.pbr s).trans (noteFetch_accounted 3 _)
    exact (hfetch.trans (pushN_accounted .plain (zextHalf (s.pc + 3)) 2 _)).ensures (by simp [execJsl, SameRecord])
  | brk g => exact ensures_next.2 (interrupt_accounted .brk (s.pc + 2) true s)
  | cop g => exact ensures_next.2 (interrupt_accounted .cop (s.pc + 2) true s)
  -- the stack is read
  | pla => exact (pullN_accounted .wrapping s.mw.bytes s).ensures (by simp [execPla, SameRecord])
  | plx | ply => exact (pullN_accounted .wrapping s.xw.bytes s).ensures (by simp [execPlx, execPly, SameRecord])
  | plp | plb => exact (pull8_accounted .wrapping s).ensures (by simp [execPlp, execPlb, SameRecord])
  | pld => exact (pullN_accounted .plain 2 s).ensures (by simp [execPld, SameRecord])
  | rts => exact (pullN_accounted .wrapping 2 s).ensures (by simp [execRts, SameRecord])
  | rtl => exact (pullN_accounted .plain 3 s).ensures (by simp [execRtl, SameRecord])
  | rti => exact ensures_next.2 (returnFromInterrupt_accounted s)

/-- Settles O11: the accesses of every instruction are those of the shared operations it is made of. -/
theorem busRecordReplaysMemory : Obligations.BusRecordReplaysMemory := fun i s => (exec_runsAs i s).accounted

end Sys2Proof.Machine

/-! # Proofs: the stack and the calls

What was pushed is pulled (R80 to R83); the pushes and pulls of registers, of DBR and of D, and the push effective
address instructions (R245 to R247, R250, R253 to R255, R257 to R261); and the three calls (R297 to R299). -/

namespace Sys2Proof.Machine

/-! ## Frames of the shared operations -/

theorem setSp_frame (sp : Half) (s : State) : unchangedBut [.sp] s (s.setSp sp) := by
  intro q hq
  cases q with
  | sp => simp at hq
  | modes | mem => simp [Piece.same]
  | _ => rfl

theorem setPc_frame (pc : Half) (s : State) : unchangedBut [.pc] s (s.setPc pc) := by
  intro q hq
  cases q with
  | pc => simp at hq
  | modes | mem => simp [Piece.same]
  | _ => rfl

theorem setPbr_frame (b : Byte) (s : State) : unchangedBut [.pbr] s (s.setPbr b) := by
  intro q hq
  cases q with
  | pbr => simp at hq
  | modes | mem => simp [Piece.same]
  | _ => rfl

theorem setDbr_frame (b : Byte) (s : State) : unchangedBut [.dbr] s (s.setDbr b) := by
  intro q hq
  cases q with
  | dbr => simp at hq
  | modes | mem => simp [Piece.same]
  | _ => rfl

theorem setDr_frame (d : Half) (s : State) : unchangedBut [.dr] s (s.setDr d) := by
  intro q hq
  cases q with
  | dr => simp at hq
  | modes | mem => simp [Piece.same]
  | _ => rfl

theorem writeA_frame (w : Width) (v : Word) (s : State) : unchangedBut [.a] s (s.writeA w v) := by
  intro q hq
  cases q with
  | a => simp at hq
  | modes | mem => simp [Piece.same]
  | _ => rfl

theorem writeX_frame (w : Width) (v : Word) (s : State) : unchangedBut [.x] s (s.writeX w v) := by
  intro q hq
  cases q with
  | x => simp at hq
  | modes | mem => simp [Piece.same]
  | _ => rfl

theorem writeY_frame (w : Width) (v : Word) (s : State) : unchangedBut [.y] s (s.writeY w v) := by
  intro q hq
  cases q with
  | y => simp at hq
  | modes | mem => simp [Piece.same]
  | _ => rfl

/-- The bus record is no piece of the frames. -/
theorem setBus_frame (l : List BusEvent) (s : State) : unchangedBut [] s (s.setBus l) := by
  intro q _
  cases q with
  | modes | mem => simp [Piece.same]
  | _ => rfl

theorem unchangedBut.refl (s : State) : unchangedBut [] s s := setBus_frame s.bus s

theorem noteReads_frame (k : BusKind) (ea : EA) (n : Nat) (s : State) : unchangedBut [] s (s.noteReads k ea n) :=
  setBus_frame _ s

theorem noteFetch_frame (i : Nat) (s : State) : unchangedBut [] s (s.noteFetch i) := setBus_frame _ s

theorem setNZ_frame (w : Width) (v : Word) (s : State) : unchangedBut [.p] s (s.setNZ w v) := setP_frame _ s

theorem forceSH_frame (s : State) : unchangedBut [.sp] s s.forceSH := setSp_frame _ s

theorem pushN_frame (r : StackRule) (v : Word) (n : Nat) (s : State) :
    unchangedBut [.mem, .sp] s (s.pushN r v n) := by
  induction n generalizing s with
  | zero => exact (unchangedBut.refl s).mono (by decide)
  | succ n ih => exact ((push8_frame r (byteOf v n) s).trans (ih _)).mono (by decide)

theorem pull8_frame (r : StackRule) (s : State) : unchangedBut [.sp] s (s.pull8 r).2 :=
  (setSp_frame (s.stackPtr r (s.sp + 1)) s).trans (setBus_frame _ _)

theorem pullN_frame (r : StackRule) (n : Nat) (s : State) : unchangedBut [.sp] s (s.pullN r n).2 := by
  induction n with
  | zero => exact (unchangedBut.refl s).mono (by decide)
  | succ n ih => exact (ih.trans (pull8_frame r _)).mono (by decide)

/-! ## Where S ends -/

theorem spMoves.congr {s t u : State} {k : Nat} (h : spMoves s t k) (e : u.sp = t.sp) : spMoves s u k := by
  rw [spMoves, e]
  exact h

theorem pushedBytes.congr {s t u : State} {r : StackRule} {bs : List Byte} (h : pushedBytes s t r bs)
    (e : u.mem = t.mem) : pushedBytes s u r bs := by
  rw [pushedBytes, e]
  exact h

/-- PC after an instruction that has advanced it and nothing else that moves it. -/
theorem advance_pcMoves_of_pc {s t : State} (h : t.pc = s.pc) (n : Nat) : pcMoves s (t.advance n) n := by
  rw [pcMoves, State.advance_pc, h]

theorem State.pushPtr_plain_toNat (s : State) (k : Nat) :
    (s.pushPtr .plain k).toNat = (s.sp.toNat + 65536 - k % 65536) % 65536 := by
  rw [State.pushPtr_toNat]
  exact if_neg (by simp)

theorem State.pullPtr_plain_toNat (s : State) (k : Nat) : (s.pullPtr .plain k).toNat = (s.sp.toNat + k) % 65536 := by
  rw [State.pullPtr_toNat]
  exact if_neg (by simp)

/-- S that has moved as a plain number, and then back into its page: the end of an instruction whose stack accesses do
not wrap (R83). -/
theorem forceSH_spMoves {s t : State} {k : Nat} (he : t.emu8 = s.emu8) (h : t.sp.toNat = (s.sp.toNat + k) % 65536) :
    spMoves s t.forceSH k := by
  have hsp : t.forceSH.sp = if s.emu8 then pageOne t.sp else t.sp := by
    rw [← he]
    rfl
  rw [spMoves, hsp]
  split
  · rw [pageOne_toNat, h]
    omega
  · exact h

theorem Pushed.emu8 {s t : State} {r : StackRule} {bs : List Byte} (h : Pushed s t r bs) : t.emu8 = s.emu8 :=
  State.emu8_congr h.e16 h.e8

/-- Wrapping pushes leave S moved down inside its page (R80). -/
theorem Pushed.spMoves {s t : State} {bs : List Byte} {n : Nat} (h : Pushed s t .wrapping bs) (hn : bs.length = n)
    (h0 : 0 < n) (h1 : n < 65536) : spMoves s t (65536 - n) := by
  have hs := s.sp.isLt
  rw [Machine.spMoves, h.ptr, hn, State.pushPtr_toNat]
  by_cases he : s.emu8 = true
  · rw [if_pos ⟨h0, rfl, he⟩, if_pos he]
    omega
  · rw [if_neg fun ⟨_, _, c⟩ => he c, if_neg he]
    omega

/-- Pushes that do not wrap leave S moved down in its page once SH is restored (R83). -/
theorem Pushed.spMoves_forceSH {s t : State} {bs : List Byte} {n : Nat} (h : Pushed s t .plain bs)
    (hn : bs.length = n) (h1 : n < 65536) : Machine.spMoves s t.forceSH (65536 - n) := by
  refine Machine.forceSH_spMoves h.emu8 ?_
  rw [h.ptr, hn, State.pushPtr_plain_toNat]
  omega

/-- Wrapping pulls leave S moved up inside its page (R82). -/
theorem State.pullPtr_spMoves {s t : State} {n : Nat} (hn : 0 < n) (h : t.sp = s.pullPtr .wrapping n) :
    spMoves s t n := by
  rw [spMoves, h, State.pullPtr_toNat]
  by_cases he : s.emu8 = true
  · rw [if_pos ⟨hn, rfl, he⟩, if_pos he]
  · rw [if_neg fun ⟨_, _, c⟩ => he c, if_neg he]

/-! ## A pull after a push -/

/-- In a state that meets the invariant, SH is `$01` in `emu8` (R43), as a fact about the number S. -/
theorem State.StackOk.sp_div {s : State} (h : s.StackOk) (he : s.emu8 = true) : s.sp.toNat / 256 = 1 := by
  rw [← halfHi_toNat, h he]
  rfl

/-- After `n` pushes the `k`-th pull is at the address of the push `n - k`, the last push first; and S is back where it
was after `n` pulls. -/
theorem Pushed.pullPtr {s t : State} {r : StackRule} {bs : List Byte} (h : Pushed s t r bs) (hs : s.StackOk)
    (hlen : bs.length < 256) {k : Nat} (hk : k ≤ bs.length) : t.pullPtr r k = s.pushPtr r (bs.length - k) := by
  have hlt := s.sp.isLt
  apply BitVec.eq_of_toNat_eq
  rw [State.pullPtr_toNat, h.ptr, h.emu8, State.pushPtr_toNat, State.pushPtr_toNat]
  by_cases he : r = .wrapping ∧ s.emu8 = true
  · have hpage := hs.sp_div he.2
    simp only [he, and_true]
    split <;> split <;> split <;> omega
  · simp only [he, and_false, if_false]
    omega

/-- The byte pushed `k` places before the last is the byte number `k` of the value (R81). -/
theorem bytesDown_getElem (v : Word) {n k : Nat} (hk : k < n) (h : n - (k + 1) < (bytesDown v n).length) :
    (bytesDown v n)[n - (k + 1)] = byteOf v k := by
  have hlast : n - 1 - (n - (k + 1)) = k := by omega
  simp [bytesDown, hlast]

/-- The bytes of a pushed value are pulled lowest first. -/
theorem Pushed.pulledByte {s t : State} {r : StackRule} {v : Word} {n : Nat} (h : Pushed s t r (bytesDown v n))
    (hs : s.StackOk) (hn : n < 256) {k : Nat} (hk : k < n) : t.pulledByte r (k + 1) = byteOf v k := by
  have hlen := bytesDown_length v n
  obtain ⟨hbytes, -⟩ := h.bytes
  rw [State.pulledByte, h.pullPtr hs (by omega) (by omega), State.stackPhys_eq, ← s.stackPhys_eq, hlen,
    hbytes (n - (k + 1)) (by omega)]
  exact bytesDown_getElem v hk _

/-- Settles O36: the pulls visit the addresses of the pushes backwards. -/
theorem pushThenPull : Obligations.PushThenPull := by
  intro s r v n hinv hn
  have hpushed := State.pushN_spec r v n (by omega) s
  constructor
  · rw [State.pullN_toNat r n hn, State.pulled,
      littleEndian_congr fun k hk => hpushed.pulledByte hinv.stackOk (by omega) hk, littleEndian_byteOf]
  · have hback := hpushed.pullPtr hinv.stackOk (by rw [bytesDown_length]; omega) (le_of_eq (bytesDown_length v n).symm)
    rw [State.pullN_sp, hback, bytesDown_length, Nat.sub_self, State.pushPtr]

/-! ## Pushes -/

theorem width_bytes_pos (w : Width) : 0 < w.bytes := by cases w <;> decide

/-- The bytes pushed for a register at its width are those of the whole register (R81). -/
theorem bytesDown_trunc (w : Width) (v : Word) : bytesDown (w.trunc v) w.bytes = bytesDown v w.bytes :=
  List.map_congr_left fun k hk => byteOf_trunc w v (by simpa using hk)

/-- The result of every instruction that pushes a register. -/
theorem pushRegister_result (v : Word) (w : Width) (s : State) :
    ∃ t, Host.Outcome.next ((s.pushN .wrapping (w.trunc v) w.bytes).advance 1) = (.next t : Out) ∧
      pushedBytes s t .wrapping (bytesDown v w.bytes) ∧ spMoves s t (65536 - w.bytes) ∧ pcMoves s t 1 ∧
      unchangedBut [.mem, .sp, .pc] s t := by
  have hle := w.bytes_le
  have hpushed := State.pushN_spec .wrapping (w.trunc v) w.bytes (by omega) s
  rw [bytesDown_trunc] at hpushed
  have hsp := hpushed.spMoves (bytesDown_length v w.bytes) (width_bytes_pos w) (by omega)
  exact ⟨_, rfl, hpushed.bytes.congr rfl, hsp.congr rfl, advance_pcMoves_of_pc (State.pushN_pc ..) 1,
    (pushN_frame _ _ _ _).trans (advance_frame 1 _)⟩

/-- Settles O37: the three instructions differ in the register they push. -/
theorem pushRegisterResult : Obligations.PushRegisterResult := by
  rintro i s v n (⟨rfl, rfl, rfl⟩ | ⟨rfl, rfl, rfl⟩ | ⟨rfl, rfl, rfl⟩)
  · exact pushRegister_result s.a s.mw s
  · exact pushRegister_result s.x s.xw s
  · exact pushRegister_result s.y s.xw s

/-- The bus record is nothing to the stack. -/
theorem Pushed.setBus {s t : State} {r : StackRule} {bs : List Byte} (h : Pushed s t r bs) (l : List BusEvent) :
    Pushed s (t.setBus l) r bs := ⟨h.bytes, h.ptr, h.e16, h.e8, h.cfg⟩

/-- PC is nothing to the stack. -/
theorem Pushed.setPc {s t : State} {r : StackRule} {bs : List Byte} (h : Pushed s t r bs) (pc : Half) :
    Pushed s (t.setPc pc) r bs := ⟨h.bytes, h.ptr, h.e16, h.e8, h.cfg⟩

/-- The result of every instruction that pushes two bytes without wrapping, from a state `u` that has only recorded
accesses since `s`. -/
theorem pushWord_result {s u : State} (hpushed : Pushed s u .plain []) (hframe : unchangedBut [] s u) (v : Half)
    (len : Nat) :
    ∃ t, pushWord v len u = .next t ∧ pushedBytes s t .plain [halfHi v, halfLo v] ∧ spMoves s t 65534 ∧
      pcMoves s t len ∧ unchangedBut [.mem, .sp, .pc] s t := by
  have htwo := hpushed.pushN (zextHalf v) 2 (by decide)
  rw [bytesDown_half, List.nil_append] at htwo
  have hpc : (u.pushN .plain (zextHalf v) 2).forceSH.pc = s.pc := by
    rw [State.forceSH_pc, State.pushN_pc]
    exact hframe .pc (by decide)
  have hsp := htwo.spMoves_forceSH (n := 2) rfl (by decide)
  exact ⟨_, rfl, htwo.bytes.congr rfl, hsp.congr rfl, advance_pcMoves_of_pc hpc len,
    (((hframe.trans (pushN_frame _ _ _ _)).trans (forceSH_frame _)).trans (advance_frame len _)).mono (by decide)⟩

/-- The two bytes of a pointer read from memory, as a 16-bit quantity (R75). -/
theorem State.lowHalf_memRead_toNat (s : State) (ea : EA) :
    (lowHalf (s.memRead ea 2)).toNat = littleEndian (fun k => Mem.read s.mem (s.physByte ea k)) 2 := by
  have hlt : (s.memRead ea 2).toNat < 65536 := s.memRead_lt ea (n := 2) (by decide)
  rw [lowHalf_toNat, Nat.mod_eq_of_lt hlt]
  exact s.memRead_toNat ea (by decide)

/-- Two little-endian bytes. -/
theorem littleEndian_two (f : Nat → Byte) : littleEndian f 2 = (f 0).toNat + (f 1).toNat * 256 := by
  simp [littleEndian]

theorem State.halfLo_memRead (s : State) (ea : EA) :
    halfLo (lowHalf (s.memRead ea 2)) = Mem.read s.mem (s.physByte ea 0) := by
  apply BitVec.eq_of_toNat_eq
  have hlo := (Mem.read s.mem (s.physByte ea 0)).isLt
  rw [halfLo_toNat, State.lowHalf_memRead_toNat, littleEndian_two]
  omega

theorem State.halfHi_memRead (s : State) (ea : EA) :
    halfHi (lowHalf (s.memRead ea 2)) = Mem.read s.mem (s.physByte ea 1) := by
  apply BitVec.eq_of_toNat_eq
  have hlo := (Mem.read s.mem (s.physByte ea 0)).isLt
  rw [halfHi_toNat, State.lowHalf_memRead_toNat, littleEndian_two]
  omega

/-- A location in bank 0 wraps at `$FFFF` and reaches memory as it is (R76). -/
theorem State.physByte_bank0 (s : State) (a : Word) (i : Nat) :
    s.physByte ⟨a, .bank0⟩ i = (a.toNat % 65536 + i) % 65536 := by
  have haddr := s.byteAddr_bank0_toNat a i
  rw [State.physByte, State.phys_of_lt s (by omega), haddr]

/-- The pointer location of PEI (R260). -/
theorem State.physByte_dpLinear (s : State) (off : Byte) (i : Nat) :
    s.physByte (s.dpLinear off) i = (s.dr.toNat + off.toNat + i) % 65536 := by
  have hoff := off.isLt
  rw [State.dpLinear, State.physByte_bank0, zextHalf_toNat, BitVec.toNat_add, BitVec.toNat_setWidth]
  omega

/-- Settles O39: the four instructions differ in the word they push; PEI reads it first. -/
theorem pushWordResult : Obligations.PushWordResult := by
  rintro i s hi lo len (⟨rfl, rfl, rfl, rfl⟩ | ⟨v, rfl, rfl, rfl, rfl⟩ | ⟨off, rfl, rfl, rfl, rfl⟩ |
    ⟨off, rfl, rfl, rfl, rfl⟩)
  · exact pushWord_result (.refl s .plain) (.refl s) s.dr 1
  · exact pushWord_result (.refl s .plain) (.refl s) v 3
  · have hword := pushWord_result ((Pushed.refl s .plain).setBus _) (noteReads_frame .pointerRead (s.dpLinear off) 2 s)
      (lowHalf (s.memRead (s.dpLinear off) 2)) 2
    rw [State.halfHi_memRead, State.halfLo_memRead, State.physByte_dpLinear, State.physByte_dpLinear,
      Nat.add_zero] at hword
    exact hword
  · exact pushWord_result (.refl s .plain) (.refl s) (s.pc + 3 + off) 3

/-! ## Pulls -/

/-- What the pulls of a value at a width have in common: `u` is the state in which some pieces `c` have taken the value,
and the flags, S and PC do not depend on which. -/
theorem pull_finish {s u : State} {w : Width} {v : Word} {c : List Piece}
    (hframe : unchangedBut c (s.pullN .wrapping w.bytes).2 u) (hc : Piece.p ∉ c ∧ Piece.sp ∉ c ∧ Piece.pc ∉ c)
    (hv : v.toNat = s.pulled .wrapping w.bytes) :
    ((u.setNZ w v).advance 1).p = s.p.withNZ w (s.pulled .wrapping w.bytes) ∧
      spMoves s ((u.setNZ w v).advance 1) w.bytes ∧ pcMoves s ((u.setNZ w v).advance 1) 1 ∧
      unchangedBut (c ++ [.p, .sp, .pc]) s ((u.setNZ w v).advance 1) := by
  obtain ⟨hcp, hcsp, hcpc⟩ := hc
  have hp : u.p = s.p := Eq.trans (hframe .p hcp) (State.pullN_p ..)
  have hsp : u.sp = s.pullPtr .wrapping w.bytes := Eq.trans (hframe .sp hcsp) (State.pullN_sp ..)
  have hpc : u.pc = s.pc := Eq.trans (hframe .pc hcpc) (State.pullN_pc ..)
  refine ⟨?_, State.pullPtr_spMoves (width_bytes_pos w) hsp, advance_pcMoves_of_pc hpc 1, ?_⟩
  · rw [State.advance_p, State.setNZ_p, hp, hv]
  · have hall := (((pullN_frame _ _ _).trans hframe).trans (setNZ_frame w v u)).trans (advance_frame 1 _)
    refine hall.mono fun q hq => ?_
    simp only [List.mem_append, List.mem_cons, List.not_mem_nil] at hq ⊢
    tauto

/-- Settles O40: a pull of a value, a write of the register at its width, and the flags of the value. -/
theorem pullRegisterResult : Obligations.PullRegisterResult := by
  intro s
  have hvalue (w : Width) := State.pullN_toNat .wrapping w.bytes w.bytes_le s
  refine ⟨⟨_, rfl, ?_, pull_finish (writeA_frame _ _ _) (by decide) (hvalue s.mw)⟩,
    ⟨_, rfl, ?_, pull_finish (writeX_frame _ _ _) (by decide) (hvalue s.xw)⟩,
    ⟨_, rfl, ?_, pull_finish (writeY_frame _ _ _) (by decide) (hvalue s.xw)⟩⟩
  · have hwrite := State.writeA_spec s.mw (s.pullN .wrapping s.mw.bytes).1 (s.pullN .wrapping s.mw.bytes).2
    rwa [hvalue, State.pullN_a] at hwrite
  · have hwrite := State.writeX_spec s.xw (s.pullN .wrapping s.xw.bytes).1 (s.pullN .wrapping s.xw.bytes).2
    rwa [hvalue, State.pullN_x] at hwrite
  · have hwrite := State.writeY_spec s.xw (s.pullN .wrapping s.xw.bytes).1 (s.pullN .wrapping s.xw.bytes).2
    rwa [hvalue, State.pullN_y] at hwrite

theorem State.pulled_one (s : State) (r : StackRule) : s.pulled r 1 = (s.pulledByte r 1).toNat := by
  simp [State.pulled, littleEndian]

theorem exec_plb (s : State) :
    exec .plb s = .next ((((s.pull8 .wrapping).2.setDbr (s.pulledByte .wrapping 1)).setNZ .w8
      (zextByte (s.pulledByte .wrapping 1))).advance 1) := rfl

/-- PLD where it has pulled D and its flags, and S is still where the pulls have left it (R258). -/
def State.pldPulled (s : State) : State :=
  ((s.pullN .plain 2).2.setDr (lowHalf (s.pullN .plain 2).1)).setNZ .w16 (s.pullN .plain 2).1

theorem exec_pld (s : State) : exec .pld s = .next (s.pldPulled.forceSH.advance 1) := rfl

theorem State.pldPulled_frame (s : State) : unchangedBut [.dr, .p, .sp] s s.pldPulled :=
  (((pullN_frame _ _ _).trans (setDr_frame _ _)).trans (setNZ_frame _ _ _)).mono (by decide)

theorem State.pldPulled_dr (s : State) : s.pldPulled.dr.toNat = s.pulled .plain 2 := by
  have hlt : s.pulled .plain 2 < 65536 := littleEndian_lt _ 2
  rw [State.pldPulled, State.setNZ_dr, State.setDr_dr, lowHalf_toNat, State.pullN_toNat .plain 2 (by decide) s]
  exact Nat.mod_eq_of_lt hlt

theorem State.pldPulled_p (s : State) : s.pldPulled.p = s.p.withNZ .w16 s.pldPulled.dr.toNat := by
  rw [State.pldPulled_dr, State.pldPulled, State.setNZ_p, State.setDr_p, State.pullN_p,
    State.pullN_toNat .plain 2 (by decide) s]

theorem State.pldPulled_sp (s : State) : s.pldPulled.sp.toNat = (s.sp.toNat + 2) % 65536 := by
  rw [State.pldPulled, State.setNZ_sp, State.setDr_sp, State.pullN_sp, State.pullPtr_plain_toNat]

theorem State.pldPulled_emu8 (s : State) : s.pldPulled.emu8 = s.emu8 := by
  obtain ⟨h8, h16⟩ : s.pldPulled.e8 = s.e8 ∧ s.pldPulled.e16 = s.e16 := s.pldPulled_frame .modes (by decide)
  exact State.emu8_congr h16 h8

/-- Settles O42: PLB is a pull at one byte; PLD pulls two bytes by the plain rule and restores SH. -/
theorem pullBankAndDirectResult : Obligations.PullBankAndDirectResult := by
  intro s
  refine ⟨⟨_, exec_plb s, rfl, ?_⟩, ⟨_, exec_pld s, ?_⟩⟩
  · obtain ⟨hp, hrest⟩ := pull_finish (s := s) (w := .w8) (c := [.dbr]) (v := zextByte (s.pulledByte .wrapping 1))
      (u := (s.pull8 .wrapping).2.setDbr (s.pulledByte .wrapping 1)) (setDbr_frame _ _) (by decide)
      ((zextByte_toNat _).trans (s.pulled_one .wrapping).symm)
    exact ⟨hp.trans (congrArg (s.p.withNZ .w8) (s.pulled_one .wrapping)), hrest⟩
  · have hframe := s.pldPulled_frame
    have hpc : s.pldPulled.forceSH.pc = s.pc := hframe .pc (by decide)
    exact ⟨s.pldPulled_dr, s.pldPulled_p, (forceSH_spMoves s.pldPulled_emu8 s.pldPulled_sp).congr rfl,
      advance_pcMoves_of_pc hpc 1, ((hframe.trans (forceSH_frame _)).trans (advance_frame 1 _)).mono (by decide)⟩

/-! ## Calls -/

/-- A byte that was decoded from memory is fetched again as it stands there now (R298, R299). -/
theorem refetch_of_fetch {s : State} {i : Nat} {op : Byte} (h : s.fetch i = op) (t : State) :
    refetch s t i op = t.fetch i := by
  rw [refetch]
  split
  next hsame => exact h.symm.trans hsame.symm
  next => rfl

/-- A pointer of `(a,x)` as a number: two bytes of the program bank (R152). -/
theorem State.progPointer_target (s : State) (addr : Half) :
    (lowHalf (s.memRead (s.progPointer addr) 2)).toNat = littleEndian
      (fun k => Mem.read s.mem (s.pbr.toNat * 65536 + (addr.toNat + s.ix.toNat + k) % 65536)) 2 := by
  have haddr (k : Nat) : s.physByte (s.progPointer addr) k =
      s.pbr.toNat * 65536 + (addr.toNat + s.ix.toNat + k) % 65536 := by
    rw [State.progPointer, State.physByte, State.byteAddr_pbank, State.phys_bankAddr, lowHalf_add_toNat, bankAddr_toNat,
      BitVec.toNat_add, lowHalf_toNat]
    omega
  rw [State.lowHalf_memRead_toNat]
  simp only [haddr]

/-- Where an instruction byte is fetched depends on PC, PBR and the parameters alone (R74). -/
theorem fetch_of_frame {c : List Piece} {s t : State} (h : unchangedBut c s t)
    (hc : Piece.pc ∉ c ∧ Piece.pbr ∉ c ∧ Piece.cfg ∉ c) (i : Nat) : t.fetch i = Mem.read t.mem (s.phys (s.fetchAddr i)) := by
  obtain ⟨hpc, hpbr, hcfg⟩ := hc
  have epc : t.pc = s.pc := h .pc hpc
  have epbr : t.pbr = s.pbr := h .pbr hpbr
  rw [State.fetch, State.read8_eq, State.phys_congr (h .cfg hcfg), State.fetchAddr, State.fetchAddr, epc, epbr]

/-- The index that an address uses depends on X, P and the mode alone (R34, R132). -/
theorem ix_of_frame {c : List Piece} {s t : State} (h : unchangedBut c s t)
    (hc : Piece.x ∉ c ∧ Piece.p ∉ c ∧ Piece.modes ∉ c) : t.ix = s.ix := by
  obtain ⟨hx, hp, hmodes⟩ := hc
  have ex : t.x = s.x := h .x hx
  have ep : t.p = s.p := h .p hp
  obtain ⟨-, e16⟩ : t.e8 = s.e8 ∧ t.e16 = s.e16 := h .modes hmodes
  rw [State.ix, State.ix, State.xw, State.xw, ex, ep, e16]

theorem jsrAbs_result (addr : Half) (s : State) :
    ∃ t, exec (.jsrAbs addr) s = .next t ∧ pushedBytes s t .wrapping [halfHi (s.pc + 2), halfLo (s.pc + 2)] ∧
      spMoves s t 65534 ∧ t.pc = addr ∧ unchangedBut [.mem, .sp, .pc] s t := by
  have hpushed := State.pushN_spec .wrapping (zextHalf (s.pc + 2)) 2 (by decide) s
  rw [bytesDown_half] at hpushed
  have hsp := hpushed.spMoves (n := 2) rfl (by decide) (by decide)
  exact ⟨_, rfl, hpushed.bytes.congr rfl, hsp.congr rfl, rfl, (pushN_frame _ _ _ _).trans (setPc_frame addr _)⟩

/-- JSR `(a,x)` where it has pushed the return address and fetches the high byte of its operand again (R298). -/
def State.jsrPushed (s : State) : State := (s.pushN .plain (zextHalf (s.pc + 2)) 2).noteFetch 2

/-- The pointer location of JSR `(a,x)`, with the high byte of its operand as it stands then (R298). -/
def State.jsrPointer (s : State) (addr : Half) : EA :=
  s.jsrPushed.progPointer (joinBytes (s.jsrPushed.fetch 2) (halfLo addr))

/-- JSR `(a,x)` where it has read its target and S is still where the pushes have left it (R298). -/
def State.jsrJumped (s : State) (addr : Half) : State :=
  (s.jsrPushed.noteReads .pointerRead (s.jsrPointer addr) 2).setPc (lowHalf (s.jsrPushed.memRead (s.jsrPointer addr) 2))

/-- JSR `(a,x)` after its decoded byte has been found in memory (R298). -/
theorem exec_jsrAbsXInd {s : State} {addr : Half} (h : s.fetch 2 = halfHi addr) :
    exec (.jsrAbsXInd addr) s = .next (s.jsrJumped addr).forceSH := by
  have hhigh : refetch s (s.pushN .plain (zextHalf (s.pc + 2)) 2) 2 (halfHi addr) = s.jsrPushed.fetch 2 :=
    refetch_of_fetch h _
  show execJsrAbsXInd addr s = _
  rw [execJsrAbsXInd, hhigh]
  rfl

theorem State.jsrPushed_frame (s : State) : unchangedBut [.mem, .sp] s s.jsrPushed :=
  (pushN_frame _ _ _ _).trans (noteFetch_frame 2 _)

theorem State.jsrPushed_pushed (s : State) :
    Pushed s s.jsrPushed .plain [halfHi (s.pc + 2), halfLo (s.pc + 2)] := by
  have hpushed := State.pushN_spec .plain (zextHalf (s.pc + 2)) 2 (by decide) s
  rw [bytesDown_half] at hpushed
  exact hpushed.setBus _

@[simp] theorem State.jsrJumped_mem (s : State) (addr : Half) : (s.jsrJumped addr).mem = s.jsrPushed.mem := by
  rw [State.jsrJumped, State.setPc_mem, State.noteReads_mem]

/-- The target of JSR `(a,x)`: the pointer is in the program bank, and its high byte is the one that stands at PC + 2
once the return address is pushed (R152, R298). -/
theorem State.jsrJumped_pc (s : State) (addr : Half) :
    (s.jsrJumped addr).pc.toNat = littleEndian (fun k => Mem.read s.jsrPushed.mem (s.pbr.toNat * 65536 +
      (addr.toNat % 256 + (Mem.read s.jsrPushed.mem (s.phys (s.fetchAddr 2))).toNat * 256 + s.ix.toNat + k) % 65536))
      2 := by
  have hframe := s.jsrPushed_frame
  have hpbr : s.jsrPushed.pbr = s.pbr := hframe .pbr (by decide)
  rw [State.jsrJumped, State.setPc_pc, State.jsrPointer, State.progPointer_target, joinBytes_toNat, halfLo_toNat,
    Nat.add_comm (_ * 256), fetch_of_frame hframe (by decide), ix_of_frame hframe (by decide), hpbr]

theorem jsrAbsXInd_result {s : State} {addr : Half} (h : s.fetch 2 = halfHi addr) :
    ∃ t, exec (.jsrAbsXInd addr) s = .next t ∧
      pushedBytes s t .plain [halfHi (s.pc + 2), halfLo (s.pc + 2)] ∧ spMoves s t 65534 ∧
      t.pc.toNat = littleEndian (fun k => Mem.read t.mem (s.pbr.toNat * 65536 +
        (addr.toNat % 256 + (Mem.read t.mem (s.phys (s.fetchAddr 2))).toNat * 256 + s.ix.toNat + k) % 65536)) 2 ∧
      unchangedBut [.mem, .sp, .pc] s t := by
  have hpushed : Pushed s (s.jsrJumped addr) .plain [halfHi (s.pc + 2), halfLo (s.pc + 2)] :=
    (s.jsrPushed_pushed.setBus _).setPc _
  have hframe : unchangedBut [.mem, .sp, .pc] s (s.jsrJumped addr) :=
    (s.jsrPushed_frame.trans (noteReads_frame _ _ _ _)).trans (setPc_frame _ _)
  refine ⟨_, exec_jsrAbsXInd h, hpushed.bytes.congr (State.forceSH_mem _),
    hpushed.spMoves_forceSH (n := 2) rfl (by decide), ?_, (hframe.trans (forceSH_frame _)).mono (by decide)⟩
  rw [State.forceSH_pc, State.forceSH_mem, State.jsrJumped_mem]
  exact s.jsrJumped_pc addr

/-- JSL after its decoded bank byte has been found in memory (R299). -/
theorem exec_jsl {s : State} {long : BitVec 24} (h : s.fetch 3 = longBank long) :
    exec (.jsl long) s =
      let t := s.push8 .plain s.pbr
      .next (((((t.noteFetch 3).pushN .plain (zextHalf (s.pc + 3)) 2).setPc (longOff long)).setPbr
        (t.fetch 3)).forceSH) := by
  show execJsl long s = _
  rw [execJsl, refetch_of_fetch h]

/-- The bank byte that JSL fetches after it has pushed PBR: the byte pushed, if that push reached it. -/
theorem fetch_push8 (s : State) (r : StackRule) (v : Byte) (i : Nat) :
    (s.push8 r v).fetch i = if s.phys (s.fetchAddr i) = s.sp.toNat then v else s.fetch i :=
  State.read_push8 r v s _

theorem jsl_result {s : State} {long : BitVec 24} (h : s.fetch 3 = longBank long) :
    ∃ t, exec (.jsl long) s = .next t ∧
      pushedBytes s t .plain [s.pbr, halfHi (s.pc + 3), halfLo (s.pc + 3)] ∧ spMoves s t 65533 ∧
      t.pc.toNat = long.toNat % 65536 ∧
      t.pbr.toNat = (if s.phys (s.fetchAddr 3) = s.sp.toNat then s.pbr.toNat else long.toNat / 65536) ∧
      unchangedBut [.mem, .sp, .pc, .pbr] s t := by
  have hbank : Pushed s ((s.push8 .plain s.pbr).noteFetch 3) .plain [s.pbr] :=
    ((Pushed.refl s .plain).push8 (by decide) s.pbr).setBus _
  have hpushed := hbank.pushN (zextHalf (s.pc + 3)) 2 (by simp)
  rw [bytesDown_half] at hpushed
  have hpbr : ((s.push8 .plain s.pbr).fetch 3).toNat =
      if s.phys (s.fetchAddr 3) = s.sp.toNat then s.pbr.toNat else long.toNat / 65536 := by
    rw [fetch_push8, h]
    split
    · rfl
    · exact longBank_toNat long
  have hframe := ((push8_frame .plain s.pbr s).trans (noteFetch_frame 3 _)).trans
    (pushN_frame .plain (zextHalf (s.pc + 3)) 2 _)
  exact ⟨_, exec_jsl h, hpushed.bytes.congr rfl, (hpushed.spMoves_forceSH (n := 3) rfl (by decide)).congr rfl,
    longOff_toNat long, hpbr,
    (((hframe.trans (setPc_frame _ _)).trans (setPbr_frame _ _)).trans (forceSH_frame _)).mono (by decide)⟩

/-- Settles O45: the three calls; the two that push before their last operand byte fetch it as it then stands. -/
theorem subroutineCallResult : Obligations.SubroutineCallResult := fun addr _ s =>
  ⟨jsrAbs_result addr s, jsrAbsXInd_result, jsl_result⟩

end Sys2Proof.Machine

/-! # Proofs: encoding

The operand fields as bytes (R74, R75, R101, R105); the opcode matrix as a table of opcodes (R102); the decoder and the
encoder as inverses of each other (R100, R101, R103, R107, R109). -/

namespace Sys2Proof

/-! ## The bytes of an operand field

Reading a field and writing it are inverse, bit by bit. -/

theorem half2_extract (h : Half) : half2 (h.extractLsb' 0 8) (h.extractLsb' 8 8) = h := by
  ext i hi
  grind [half2]

theorem long3_extract (l : BitVec 24) :
    long3 (l.extractLsb' 0 8) (l.extractLsb' 8 8) (l.extractLsb' 16 8) = l := by
  ext i hi
  grind [long3]

theorem word4_extract (v : Word) :
    word4 (v.extractLsb' 0 8) (v.extractLsb' 8 8) (v.extractLsb' 16 8) (v.extractLsb' 24 8) = v := by
  ext i hi
  grind [word4]

theorem halfBytes_half2 (lo hi : Byte) : halfBytes (half2 lo hi) = [lo, hi] := by
  have hlo : (half2 lo hi).extractLsb' 0 8 = lo := by ext; grind [half2]
  have hhi : (half2 lo hi).extractLsb' 8 8 = hi := by ext; grind [half2]
  rw [halfBytes, hlo, hhi]

theorem longBytes_long3 (lo hi bank : Byte) : longBytes (long3 lo hi bank) = [lo, hi, bank] := by
  have hlo : (long3 lo hi bank).extractLsb' 0 8 = lo := by ext; grind [long3]
  have hhi : (long3 lo hi bank).extractLsb' 8 8 = hi := by ext; grind [long3]
  have hbank : (long3 lo hi bank).extractLsb' 16 8 = bank := by ext; grind [long3]
  rw [longBytes, hlo, hhi, hbank]

theorem encode_word4 (b0 b1 b2 b3 : Byte) : (Imm.b4 (word4 b0 b1 b2 b3)).encode = [b0, b1, b2, b3] := by
  have h0 : (word4 b0 b1 b2 b3).extractLsb' 0 8 = b0 := by ext; grind [word4]
  have h1 : (word4 b0 b1 b2 b3).extractLsb' 8 8 = b1 := by ext; grind [word4]
  have h2 : (word4 b0 b1 b2 b3).extractLsb' 16 8 = b2 := by ext; grind [word4]
  have h3 : (word4 b0 b1 b2 b3).extractLsb' 24 8 = b3 := by ext; grind [word4]
  rw [Imm.encode, h0, h1, h2, h3]

/-! ## Cells -/

/-- The operand field that a cell reads from the four bytes after the opcode (R101, R103). -/
def OpCell.field (c : DecodeCtx) (b1 b2 b3 b4 : Byte) : OpCell → Operands
  | .none _ => .none
  | .byte _ => .byte b1
  | .half _ => .half (half2 b1 b2)
  | .long _ => .long (long3 b1 b2 b3)
  | .accImm _ => .accImm (readImm c.mw b1 b2 b3 b4)
  | .idxImm _ => .idxImm (readImm c.xw b1 b2 b3 b4)
  | .banks _ => .banks (if c.native then .native else .banks b1 b2)

/-- The instruction a cell stands for with a given operand field, if the field has the layout of the cell. -/
def OpCell.fill : OpCell → Operands → Option Instr
  | .none i, .none => some i
  | .byte f, .byte b => some (f b)
  | .half f, .half h => some (f h)
  | .long f, .long l => some (f l)
  | .accImm f, .accImm v => some (f v)
  | .idxImm f, .idxImm v => some (f v)
  | .banks f, .banks b => some (f b)
  | _, _ => Option.none

/-- The cells stand for the `k` opcodes from `n` up, in order: in every context the instruction that a cell builds has
that opcode, and its operand field is the one that the cell reads. -/
def OpcodesFrom (n k : Nat) (cells : List OpCell) : Prop :=
  ∀ (c c' : DecodeCtx) (b1 b2 b3 b4 : Byte),
    cells.map (fun cell => (cell.build c b1 b2 b3 b4).opcode c') = (List.range' n k).map (BitVec.ofNat 8) ∧
      cells.map (fun cell => (cell.build c b1 b2 b3 b4).operands) = cells.map (OpCell.field c b1 b2 b3 b4)

theorem OpcodesFrom.append {n j k : Nat} {l r : List OpCell} (hl : OpcodesFrom n j l)
    (hr : OpcodesFrom (n + j) k r) : OpcodesFrom n (j + k) (l ++ r) := by
  intro c c' b1 b2 b3 b4
  obtain ⟨hlop, hlfield⟩ := hl c c' b1 b2 b3 b4
  obtain ⟨hrop, hrfield⟩ := hr c c' b1 b2 b3 b4
  constructor
  · rw [List.map_append, hlop, hrop, ← List.map_append, List.range'_append_1]
  · rw [List.map_append, List.map_append, hlfield, hrfield]

/-- The matrix R102, one row at a time. -/
theorem opMatrix_opcodes : OpcodesFrom 0 256 opMatrix := by
  have row0 : OpcodesFrom 0x00 16 opRow0 := fun _ _ _ _ _ _ => ⟨rfl, rfl⟩
  have row1 : OpcodesFrom 0x10 16 opRow1 := fun _ _ _ _ _ _ => ⟨rfl, rfl⟩
  have row2 : OpcodesFrom 0x20 16 opRow2 := fun _ _ _ _ _ _ => ⟨rfl, rfl⟩
  have row3 : OpcodesFrom 0x30 16 opRow3 := fun _ _ _ _ _ _ => ⟨rfl, rfl⟩
  have row4 : OpcodesFrom 0x40 16 opRow4 := fun _ _ _ _ _ _ => ⟨rfl, rfl⟩
  have row5 : OpcodesFrom 0x50 16 opRow5 := fun _ _ _ _ _ _ => ⟨rfl, rfl⟩
  have row6 : OpcodesFrom 0x60 16 opRow6 := fun _ _ _ _ _ _ => ⟨rfl, rfl⟩
  have row7 : OpcodesFrom 0x70 16 opRow7 := fun _ _ _ _ _ _ => ⟨rfl, rfl⟩
  have row8 : OpcodesFrom 0x80 16 opRow8 := fun _ _ _ _ _ _ => ⟨rfl, rfl⟩
  have row9 : OpcodesFrom 0x90 16 opRow9 := fun _ _ _ _ _ _ => ⟨rfl, rfl⟩
  have rowA : OpcodesFrom 0xA0 16 opRowA := fun _ _ _ _ _ _ => ⟨rfl, rfl⟩
  have rowB : OpcodesFrom 0xB0 16 opRowB := fun _ _ _ _ _ _ => ⟨rfl, rfl⟩
  have rowC : OpcodesFrom 0xC0 16 opRowC := fun _ _ _ _ _ _ => ⟨rfl, rfl⟩
  have rowD : OpcodesFrom 0xD0 16 opRowD := fun _ _ _ _ _ _ => ⟨rfl, rfl⟩
  have rowE : OpcodesFrom 0xE0 16 opRowE := fun _ _ _ _ _ _ => ⟨rfl, rfl⟩
  have rowF : OpcodesFrom 0xF0 16 opRowF := fun _ _ _ _ _ _ => ⟨rfl, rfl⟩
  exact row0.append row1 |>.append row2 |>.append row3 |>.append row4 |>.append row5 |>.append row6 |>.append row7
    |>.append row8 |>.append row9 |>.append rowA |>.append rowB |>.append rowC |>.append rowD |>.append rowE
    |>.append rowF

theorem opMatrix_length : opMatrix.length = 256 := by
  obtain ⟨hop, -⟩ := opMatrix_opcodes .atReset .atReset 0 0 0 0
  simpa using congrArg List.length hop

/-! ## The cell of an opcode byte -/

theorem opCell_of_xfe {c : DecodeCtx} {b : Byte} (h : c.xfe = some b) : opCell c b = .none .xfe := if_pos h

theorem opcode_xfe (c : DecodeCtx) : Instr.xfe.opcode c = c.xfe.getD 0 := rfl

theorem opCell_of_not_xfe {c : DecodeCtx} {b : Byte} (h : c.xfe ≠ some b) :
    opCell c b = opMatrix.getD b.toNat (.none .nop) := if_neg h

/-- What the cell of a byte builds has that byte as its opcode, in every context, and the field read from the bytes. -/
theorem opCell_build_of_not_xfe {c : DecodeCtx} {b : Byte} (h : c.xfe ≠ some b) (c' : DecodeCtx)
    (b1 b2 b3 b4 : Byte) :
    ((opCell c b).build c b1 b2 b3 b4).opcode c' = b ∧
      ((opCell c b).build c b1 b2 b3 b4).operands = (opCell c b).field c b1 b2 b3 b4 := by
  obtain ⟨hop, hfield⟩ := opMatrix_opcodes c c' b1 b2 b3 b4
  have hlt : b.toNat < opMatrix.length := opMatrix_length ▸ b.isLt
  rw [opCell_of_not_xfe h, List.getD_eq_getElem _ _ hlt]
  constructor
  · simpa [hlt, b.isLt] using congrArg (·[b.toNat]?) hop
  · simpa [hlt] using congrArg (·[b.toNat]?) hfield

/-- The cell at an instruction's opcode stands for it with its own operand field: one row of the table each (R102). -/
theorem opMatrix_fill (c : DecodeCtx) {i : Instr} (h : i ≠ .xfe) :
    (opMatrix.getD (i.opcode c).toNat (.none .nop)).fill i.operands = some i := by
  cases i with
  | xfe => exact absurd rfl h
  | _ => rfl

/-! ## Well-formed and shadowed instructions -/

theorem Instr.wf_iff {c : DecodeCtx} {i : Instr} :
    i.wf c = true ↔ i.operands.wf c = true ∧ (i = .xfe → c.xfe.isSome = true) := by
  simp [Instr.wf, Instr.xfeOk, or_iff_not_imp_left]

theorem Instr.shadowed_eq_false_iff {c : DecodeCtx} {i : Instr} :
    i.shadowed c = false ↔ (i ≠ .xfe → c.xfe ≠ some (i.opcode c)) := by
  simp [Instr.shadowed]

/-- XFE is no cell of the matrix: its opcode depends on the context (R107). -/
theorem opCell_build_ne_xfe {c : DecodeCtx} {b : Byte} (h : c.xfe ≠ some b) (b1 b2 b3 b4 : Byte) :
    (opCell c b).build c b1 b2 b3 b4 ≠ .xfe := by
  intro hxfe
  have hop (x : Byte) : x = b := by
    obtain ⟨hop, -⟩ := opCell_build_of_not_xfe h ⟨.w8, .w8, false, some x⟩ b1 b2 b3 b4
    rwa [hxfe] at hop
  exact absurd ((hop 0).trans (hop 1).symm) (by decide)

/-- What the cell of a byte builds is well-formed, is not shadowed, has that byte as its opcode and the field that the
cell reads (R101, R103, R107). -/
theorem opCell_build (c : DecodeCtx) (b b1 b2 b3 b4 : Byte) :
    let i := (opCell c b).build c b1 b2 b3 b4
    i.opcode c = b ∧ i.operands = (opCell c b).field c b1 b2 b3 b4 ∧ (i = .xfe → c.xfe.isSome = true) ∧
      i.shadowed c = false := by
  by_cases h : c.xfe = some b
  · rw [opCell_of_xfe h]
    exact ⟨by rw [OpCell.build, opcode_xfe, h, Option.getD_some], rfl, fun _ => by simp [h], rfl⟩
  · have hxfe := opCell_build_ne_xfe h b1 b2 b3 b4
    obtain ⟨hop, hfield⟩ := opCell_build_of_not_xfe h c b1 b2 b3 b4
    exact ⟨hop, hfield, fun e => absurd e hxfe, Instr.shadowed_eq_false_iff.2 fun _ => by rwa [hop]⟩

/-- The cell at the opcode of an instruction that is not shadowed stands for it (R102, R107). -/
theorem opCell_fill {c : DecodeCtx} {i : Instr} (hxfe : i = .xfe → c.xfe.isSome = true) (hs : i.shadowed c = false) :
    (opCell c (i.opcode c)).fill i.operands = some i := by
  by_cases hi : i = .xfe
  · obtain ⟨b, hb⟩ := Option.isSome_iff_exists.1 (hxfe hi)
    subst hi
    rw [opCell_of_xfe (by rw [opcode_xfe, hb, Option.getD_some])]
    rfl
  · rw [opCell_of_not_xfe (Instr.shadowed_eq_false_iff.1 hs hi)]
    exact opMatrix_fill c hi

/-! ## The field that a cell reads -/

theorem readImm_width (w : Width) (b1 b2 b3 b4 : Byte) : (readImm w b1 b2 b3 b4).width = w := by cases w <;> rfl

theorem readImm_encode (w : Width) (b1 b2 b3 b4 : Byte) :
    (readImm w b1 b2 b3 b4).encode = [b1, b2, b3, b4].take w.bytes := by
  cases w with
  | w8 => rfl
  | w16 => exact halfBytes_half2 b1 b2
  | w32 => exact encode_word4 b1 b2 b3 b4

/-- Reading an immediate of its own width from its bytes gives it back, whatever follows them (R133). -/
theorem readImm_of_encode (v : Imm) (rest : List Byte) :
    readImm v.width ((v.encode ++ rest).getD 0 0) ((v.encode ++ rest).getD 1 0) ((v.encode ++ rest).getD 2 0)
      ((v.encode ++ rest).getD 3 0) = v := by
  cases v with
  | b1 v => rfl
  | b2 v => exact congrArg Imm.b2 (half2_extract v)
  | b4 v => exact congrArg Imm.b4 (word4_extract v)

theorem OpCell.size_le (c : DecodeCtx) (cell : OpCell) : cell.size c ≤ 4 := by
  cases cell with
  | none _ | byte _ | half _ | long _ => simp [OpCell.size]
  | accImm _ => exact c.mw.bytes_le
  | idxImm _ => exact c.xw.bytes_le
  | banks _ => simp only [OpCell.size]; split <;> decide

theorem OpCell.field_wf (c : DecodeCtx) (b1 b2 b3 b4 : Byte) (cell : OpCell) :
    (cell.field c b1 b2 b3 b4).wf c = true := by
  cases cell with
  | none _ | byte _ | half _ | long _ => rfl
  | accImm _ | idxImm _ => simp [OpCell.field, Operands.wf, readImm_width]
  | banks _ => cases h : c.native <;> simp [OpCell.field, Operands.wf, h]

/-- The field's bytes are those it was read from. -/
theorem OpCell.field_encode (c : DecodeCtx) (b1 b2 b3 b4 : Byte) (cell : OpCell) :
    (cell.field c b1 b2 b3 b4).encode = [b1, b2, b3, b4].take (cell.size c) := by
  cases cell with
  | none _ | byte _ => rfl
  | half _ => exact halfBytes_half2 b1 b2
  | long _ => exact longBytes_long3 b1 b2 b3
  | accImm _ => exact readImm_encode c.mw b1 b2 b3 b4
  | idxImm _ => exact readImm_encode c.xw b1 b2 b3 b4
  | banks _ => cases h : c.native <;> simp [OpCell.field, OpCell.size, Operands.encode, h]

/-- A cell that stands for `i` with a field of the right size reads that field from its bytes, whatever follows them. -/
theorem OpCell.build_of_fill {c : DecodeCtx} {cell : OpCell} {o : Operands} {i : Instr} (h : cell.fill o = some i)
    (hwf : o.wf c = true) (rest : List Byte) :
    cell.size c = o.encode.length ∧
      cell.build c ((o.encode ++ rest).getD 0 0) ((o.encode ++ rest).getD 1 0) ((o.encode ++ rest).getD 2 0)
        ((o.encode ++ rest).getD 3 0) = i := by
  unfold OpCell.fill at h
  split at h
  next => cases h; exact ⟨rfl, rfl⟩
  next => cases h; exact ⟨rfl, rfl⟩
  next f x => cases h; exact ⟨rfl, congrArg f (half2_extract x)⟩
  next f x => cases h; exact ⟨rfl, congrArg f (long3_extract x)⟩
  next f v =>
    cases h
    have hw : v.width = c.mw := by simpa [Operands.wf] using hwf
    exact ⟨by simp [OpCell.size, Operands.encode, Laws.EncodedLength.imm_length, hw],
      congrArg f (hw ▸ readImm_of_encode v rest)⟩
  next f v =>
    cases h
    have hw : v.width = c.xw := by simpa [Operands.wf] using hwf
    exact ⟨by simp [OpCell.size, Operands.encode, Laws.EncodedLength.imm_length, hw],
      congrArg f (hw ▸ readImm_of_encode v rest)⟩
  next f b =>
    cases h
    cases b with
    | banks dst src =>
      have hn : c.native = false := by simpa [Operands.wf] using hwf
      simp [OpCell.size, OpCell.build, Operands.encode, hn]
    | native =>
      have hn : c.native = true := hwf
      simp [OpCell.size, OpCell.build, Operands.encode, hn]
  next => cases h

/-! ## Decoding and encoding -/

/-- The decoder accepts exactly the strings of an opcode byte and at least the operand bytes of its cell (R101, R109). -/
theorem decode_eq_ok_iff {c : DecodeCtx} {bytes tail : List Byte} {i : Instr} :
    decode c bytes = .ok (i, tail) ↔ ∃ b rest, bytes = b :: rest ∧ (opCell c b).size c ≤ rest.length ∧
      (opCell c b).build c (rest.getD 0 0) (rest.getD 1 0) (rest.getD 2 0) (rest.getD 3 0) = i ∧
        rest.drop ((opCell c b).size c) = tail := by
  constructor
  · intro h
    cases bytes with
    | nil => cases h
    | cons b rest =>
      rw [decode] at h
      split at h
      next => cases h
      next hlong =>
        cases h
        exact ⟨b, rest, rfl, Nat.le_of_not_lt hlong, rfl, rfl⟩
  · rintro ⟨b, rest, rfl, hsize, rfl, rfl⟩
    exact if_neg (Nat.not_lt.2 hsize)

/-- The bytes that a field reads are the first bytes of the string, where the string has them. -/
theorem take_getD {l : List Byte} {n : Nat} (h4 : n ≤ 4) (hl : n ≤ l.length) :
    [l.getD 0 0, l.getD 1 0, l.getD 2 0, l.getD 3 0].take n = l.take n := by
  refine List.ext_getElem (by simp only [List.length_take, List.length_cons, List.length_nil]; omega) fun k _ hk => ?_
  have hkn : k < n ∧ k < l.length := by simpa using hk
  have hk4 : k < 4 := by omega
  rw [List.getElem_take, List.getElem_take]
  interval_cases k <;> simp [hkn]

/-- Settles O1: the cell at the instruction's opcode stands for it, and reads its field back from its bytes. -/
theorem decodeEncodeRoundTrip : Obligations.DecodeEncodeRoundTrip := by
  intro c i rest hwf hshadow
  obtain ⟨hfield, hxfe⟩ := Instr.wf_iff.1 hwf
  obtain ⟨hsize, hbuild⟩ := OpCell.build_of_fill (opCell_fill hxfe hshadow) hfield rest
  refine decode_eq_ok_iff.2 ⟨i.opcode c, i.operands.encode ++ rest, rfl, ?_, hbuild, ?_⟩
  · rw [hsize, List.length_append]
    exact Nat.le_add_right ..
  · rw [hsize, List.drop_left]

/-- Settles O2: no cell asks for more than four bytes; and what a cell builds has the cell's byte as its opcode and the
field it read as its operands. -/
theorem decodeAcceptsAndReencodes : Obligations.DecodeAcceptsAndReencodes := by
  refine ⟨fun c b rest h => ?_, fun c bytes tail i h => ?_⟩
  · exact ⟨(_, _), decode_eq_ok_iff.2 ⟨b, rest, rfl, ((opCell c b).size_le c).trans h, rfl, rfl⟩⟩
  · obtain ⟨b, rest, rfl, hsize, rfl, rfl⟩ := decode_eq_ok_iff.1 h
    obtain ⟨hop, hoperands, hxfe, hshadow⟩ :=
      opCell_build c b (rest.getD 0 0) (rest.getD 1 0) (rest.getD 2 0) (rest.getD 3 0)
    refine ⟨Instr.wf_iff.2 ⟨hoperands ▸ OpCell.field_wf .., hxfe⟩, hshadow, ?_⟩
    rw [encode, hop, hoperands, OpCell.field_encode, take_getD (OpCell.size_le c _) hsize, List.cons_append,
      List.take_append_drop]

/-- Settles O3: each word is evaluated. -/
theorem decodedWordsOfTheSpec : Obligations.DecodedWordsOfTheSpec := by
  unfold Obligations.DecodedWordsOfTheSpec
  decide

end Sys2Proof

/-! # Proofs: the value of an operand

An immediate is the number of its bytes, and a memory operand the number of the bytes at the address of its mode (R105,
R133, R170). -/

namespace Sys2Proof.Machine

theorem extract_eq_byteOf (v : Word) (k : Nat) : v.extractLsb' (8 * k) 8 = byteOf v k := by
  apply BitVec.eq_of_toNat_eq
  rw [BitVec.extractLsb'_toNat, byteOf_toNat, Nat.shiftRight_eq_div_pow, Nat.pow_mul]

theorem halfBytes_eq (h : Half) : halfBytes h = [byteOf (zextHalf h) 0, byteOf (zextHalf h) 1] := by
  rw [byteOf_zextHalf_zero, byteOf_zextHalf_one]
  rfl

/-- The bytes of an immediate are those of its value, low byte first (R105, R133). -/
theorem encode_eq_bytes (v : Imm) : v.encode = (List.range v.width.bytes).map (byteOf (immValue v)) := by
  cases v with
  | b1 b =>
    have hb : byteOf (zextByte b) 0 = b := by
      apply BitVec.eq_of_toNat_eq
      rw [byteOf_toNat, zextByte_toNat, Nat.pow_zero, Nat.div_one, Nat.mod_eq_of_lt b.isLt]
    exact congrArg (fun x => [x]) hb.symm
  | b2 h => exact halfBytes_eq h
  | b4 w =>
    show [w.extractLsb' (8 * 0) 8, w.extractLsb' (8 * 1) 8, w.extractLsb' (8 * 2) 8, w.extractLsb' (8 * 3) 8] = _
    simp only [extract_eq_byteOf]
    rfl

theorem encode_getD (v : Imm) {k : Nat} (hk : k < v.width.bytes) : v.encode.getD k 0 = byteOf (immValue v) k := by
  simp [encode_eq_bytes, hk]

/-- The value of an immediate of the width in force is the number of its bytes. -/
theorem immediate_value_toNat {v : Imm} {w : Width} (h : v.width = w) (s : State) :
    ((Operand.imm v).value w s).toNat = littleEndian (fun k => v.encode.getD k 0) w.bytes := by
  subst h
  rw [Operand.value, Width.trunc_toNat, Width.pow_bits, ← littleEndian_byteOf]
  exact littleEndian_congr fun k hk => (encode_getD v hk).symm

/-- Settles O16: an immediate is the number of its bytes, and a memory operand is read byte by byte. -/
theorem operandValues : Obligations.OperandValues := fun s w =>
  ⟨fun _ hv => immediate_value_toNat hv s, fun m => s.memRead_toNat (m.ea s) w.bytes_le⟩

end Sys2Proof.Machine

/-! # Proofs: a step answers

Nothing but ABORT- over an interrupt sequence stops the machine (R109, R361, R380). -/

namespace Sys2Proof.Machine

/-! ## Every instruction answers -/

/-- The answer is a next state. -/
def Answers (o : Out) : Prop := ∃ t, o = .next t

theorem moveStep_answers (d : Word) (b : BlockBanks) (s : State) : Answers (moveStep d b s) := by
  unfold moveStep
  split <;> exact ⟨_, rfl⟩

/-- Each case of `RunsAs` ends in a next state; the block moves do so whether or not a byte is left to move. -/
theorem RunsAs.answers {s : State} {i : Instr} {o : Out} (h : RunsAs s i o) : Answers o := by
  cases h with
  | mvn b => exact moveStep_answers 1 b s
  | mvp b => exact moveStep_answers (-1) b s
  | _ => exact ⟨_, rfl⟩

theorem runInstr_answers (s : State) : Answers (runInstr s) := (exec_runsAs _ _).answers

theorem instrStep_answers (inp : Inputs) (s : State) : Answers (instrStep inp s) := by
  obtain ⟨t, ht⟩ := runInstr_answers s
  unfold instrStep
  split
  · exact ⟨_, by rw [abortedInstr, ht]⟩
  · exact ⟨t, ht⟩

/-! ## Every step answers, but for the one refusal -/

/-- An interrupt sequence is due: ABORT or NMI is latched, or IRQ- is low and enabled (R367 (3) to (5)). -/
def InterruptDue (inp : Inputs) (s : State) : Prop :=
  s.abortPending = true ∨ s.nmiPending = true ∨ (inp.irq = true ∧ s.p.i = false)

/-- The environment aborts an interrupt sequence (R380). -/
def SequenceAborted (inp : Inputs) (s : State) : Prop :=
  abortAsserted inp s = true ∧ s.run ≠ .stopped ∧ InterruptDue inp s

theorem hardwareInterrupt_cases (src : IntSource) (inp : Inputs) (s : State) :
    Answers (hardwareInterrupt src inp s) ∨
      (hardwareInterrupt src inp s = .refused .abortedSequence ∧ abortAsserted inp s = true) := by
  unfold hardwareInterrupt
  split
  next hab => exact .inr ⟨rfl, hab⟩
  next => exact .inl ⟨_, rfl⟩

theorem chooseStep_cases (inp : Inputs) (s : State) :
    Answers (chooseStep inp s) ∨ (chooseStep inp s = .refused .abortedSequence ∧ SequenceAborted inp s) := by
  have sequence {src : IntSource} {u : State} (hab : abortAsserted inp u = abortAsserted inp s)
      (hrun : s.run ≠ .stopped) (hdue : InterruptDue inp s) :
      Answers (hardwareInterrupt src inp u) ∨
        (hardwareInterrupt src inp u = .refused .abortedSequence ∧ SequenceAborted inp s) :=
    (hardwareInterrupt_cases src inp u).imp_right fun ⟨h, ha⟩ => ⟨h, hab ▸ ha, hrun, hdue⟩
  unfold chooseStep
  split_ifs with hstop habort hnmi hirq hwait hwake
  · exact .inl ⟨_, rfl⟩
  · exact sequence rfl hstop (.inl habort)
  · exact sequence rfl hstop (.inr (.inl hnmi))
  · exact sequence rfl hstop (.inr (.inr hirq))
  · exact .inl (instrStep_answers ..)
  · exact .inl ⟨_, rfl⟩
  · exact .inl (instrStep_answers ..)

theorem atBoundary_run (s : State) : (atBoundary s).run = s.run := by
  unfold atBoundary latchNmi
  split <;> rfl

theorem atBoundary_abortPending (s : State) : (atBoundary s).abortPending = s.abortPending := by
  unfold atBoundary latchNmi
  split <;> rfl

theorem atBoundary_p (s : State) : (atBoundary s).p = s.p := by
  unfold atBoundary latchNmi
  split <;> rfl

/-- A processor that is not stopped takes the NMI- edge of its boundary (R366). -/
theorem atBoundary_nmiPending {s : State} (h : s.run ≠ .stopped) :
    (atBoundary s).nmiPending = (s.nmiPending || (currentInputs s).nmiEdge) :=
  congrArg State.nmiPending (if_neg h)

theorem abortAsserted_iff {inp : Inputs} {s : State} :
    abortAsserted inp s = true ↔ inp.abort = true ∧ s.cfg.abortModel = .precise := by simp [abortAsserted]

/-- A reset in the middle of a step ignores ABORT- (R412), so nothing can stop the step it abandons. -/
theorem resetMidStep_answers (s : State) : Answers (resetMidStep s) := by
  obtain ⟨t, ht⟩ | ⟨-, hab, -⟩ := chooseStep_cases { currentInputs s with abort := false } (atBoundary s)
  · exact ⟨_, by rw [resetMidStep, ht]⟩
  · exact absurd (abortAsserted_iff.1 hab).1 Bool.false_ne_true

/-- Settles O7: reset answers always, and at any other boundary the choice of R367 answers or is the one refusal. -/
theorem stepAnswersNextState : Obligations.StepAnswersNextState := by
  intro s
  unfold step boundary
  cases hres : (currentInputs s).res with
  | inactive =>
    refine (chooseStep_cases (currentInputs s) (atBoundary s)).imp_right fun ⟨href, hab, hrun, hdue⟩ => ?_
    obtain ⟨habort, hprecise⟩ := abortAsserted_iff.1 hab
    rw [atBoundary_run] at hrun
    rw [atBoundary_cfg] at hprecise
    rw [InterruptDue, atBoundary_abortPending, atBoundary_nmiPending hrun, atBoundary_p, Bool.or_eq_true,
      or_assoc] at hdue
    exact ⟨href, hprecise, habort, rfl, hrun, hdue⟩
  | atBoundary => exact .inl ⟨_, rfl⟩
  | midStep => exact .inl (resetMidStep_answers s)

end Sys2Proof.Machine

/-! # Proofs: the assembler

Each operand format yields well-formed instructions only (R103, R107, R117, R118, R122), and a mnemonic takes one of the
formats. -/

namespace Sys2Proof.Machine

/-! ## Well-formed results -/

/-- The instruction, if there is one, is well-formed in the context. -/
def Fits (c : DecodeCtx) (r : Option Instr) : Prop := ∀ i, r = some i → i.wf c = true

theorem Fits.none {c : DecodeCtx} : Fits c none := nofun

theorem Fits.some {c : DecodeCtx} {i : Instr} (h : i.wf c = true) : Fits c (some i) := fun _ e => Option.some.inj e ▸ h

theorem Fits.orElse {c : DecodeCtx} {r q : Option Instr} (hr : Fits c r) (hq : Fits c q) : Fits c (r <|> q) := by
  cases r with
  | none => exact hq
  | some i => exact hr

/-! ## The forms of an instruction -/

/-- Every form on memory is well-formed in every context: an address has no width of its own (R103). -/
def FormsFit (f : Mode → Option Instr) : Prop := ∀ c m, Fits c (f m)

/-- The same for an instruction that also has an immediate form, which is well-formed at the width `w c` (R103 (a)). -/
def OperandFormsFit (w : DecodeCtx → Width) (f : Operand → Option Instr) : Prop :=
  FormsFit (fun m => f (.mem m)) ∧ ∀ c v, v.width = w c → Fits c (f (.imm v))

theorem accImm_wf {c : DecodeCtx} {i : Instr} {v : Imm} (hi : i.operands = .accImm v) (hx : i.xfeOk c = true)
    (h : v.width = c.mw) : i.wf c = true := by
  simp [Instr.wf, hi, hx, Operands.wf, h]

theorem idxImm_wf {c : DecodeCtx} {i : Instr} {v : Imm} (hi : i.operands = .idxImm v) (hx : i.xfeOk c = true)
    (h : v.width = c.xw) : i.wf c = true := by
  simp [Instr.wf, hi, hx, Operands.wf, h]

theorem staForm_fits : FormsFit staForm := fun _ m _ h => by cases m <;> cases h <;> rfl
theorem stxForm_fits : FormsFit stxForm := fun _ m _ h => by cases m <;> cases h <;> rfl
theorem styForm_fits : FormsFit styForm := fun _ m _ h => by cases m <;> cases h <;> rfl
theorem stzForm_fits : FormsFit stzForm := fun _ m _ h => by cases m <;> cases h <;> rfl
theorem bitForm_fits : FormsFit bitForm := fun _ m _ h => by cases m <;> cases h <;> rfl
theorem aslForm_fits : FormsFit aslForm := fun _ m _ h => by cases m <;> cases h <;> rfl
theorem lsrForm_fits : FormsFit lsrForm := fun _ m _ h => by cases m <;> cases h <;> rfl
theorem rolForm_fits : FormsFit rolForm := fun _ m _ h => by cases m <;> cases h <;> rfl
theorem rorForm_fits : FormsFit rorForm := fun _ m _ h => by cases m <;> cases h <;> rfl
theorem incForm_fits : FormsFit incForm := fun _ m _ h => by cases m <;> cases h <;> rfl
theorem decForm_fits : FormsFit decForm := fun _ m _ h => by cases m <;> cases h <;> rfl
theorem tsbForm_fits : FormsFit tsbForm := fun _ m _ h => by cases m <;> cases h <;> rfl
theorem trbForm_fits : FormsFit trbForm := fun _ m _ h => by cases m <;> cases h <;> rfl

theorem ldaForm_fits : OperandFormsFit DecodeCtx.mw ldaForm :=
  ⟨fun _ m _ h => by cases m <;> cases h <;> rfl, fun _ _ h => .some (accImm_wf rfl rfl h)⟩

theorem adcForm_fits : OperandFormsFit DecodeCtx.mw adcForm :=
  ⟨fun _ m _ h => by cases m <;> cases h <;> rfl, fun _ _ h => .some (accImm_wf rfl rfl h)⟩

theorem sbcForm_fits : OperandFormsFit DecodeCtx.mw sbcForm :=
  ⟨fun _ m _ h => by cases m <;> cases h <;> rfl, fun _ _ h => .some (accImm_wf rfl rfl h)⟩

theorem andForm_fits : OperandFormsFit DecodeCtx.mw andForm :=
  ⟨fun _ m _ h => by cases m <;> cases h <;> rfl, fun _ _ h => .some (accImm_wf rfl rfl h)⟩

theorem oraForm_fits : OperandFormsFit DecodeCtx.mw oraForm :=
  ⟨fun _ m _ h => by cases m <;> cases h <;> rfl, fun _ _ h => .some (accImm_wf rfl rfl h)⟩

theorem eorForm_fits : OperandFormsFit DecodeCtx.mw eorForm :=
  ⟨fun _ m _ h => by cases m <;> cases h <;> rfl, fun _ _ h => .some (accImm_wf rfl rfl h)⟩

theorem cmpForm_fits : OperandFormsFit DecodeCtx.mw cmpForm :=
  ⟨fun _ m _ h => by cases m <;> cases h <;> rfl, fun _ _ h => .some (accImm_wf rfl rfl h)⟩

theorem ldxForm_fits : OperandFormsFit DecodeCtx.xw ldxForm :=
  ⟨fun _ m _ h => by cases m <;> cases h <;> rfl, fun _ _ h => .some (idxImm_wf rfl rfl h)⟩

theorem ldyForm_fits : OperandFormsFit DecodeCtx.xw ldyForm :=
  ⟨fun _ m _ h => by cases m <;> cases h <;> rfl, fun _ _ h => .some (idxImm_wf rfl rfl h)⟩

theorem cpxForm_fits : OperandFormsFit DecodeCtx.xw cpxForm :=
  ⟨fun _ m _ h => by cases m <;> cases h <;> rfl, fun _ _ h => .some (idxImm_wf rfl rfl h)⟩

theorem cpyForm_fits : OperandFormsFit DecodeCtx.xw cpyForm :=
  ⟨fun _ m _ h => by cases m <;> cases h <;> rfl, fun _ _ h => .some (idxImm_wf rfl rfl h)⟩

/-! ## The operand formats -/

theorem AddrClass.pick_fits {c : DecodeCtx} {d a al : Option Instr} (hd : Fits c d) (ha : Fits c a) (hal : Fits c al)
    (k : AddrClass) : Fits c (k.pick d a al) := by
  cases k with
  | d => exact hd.orElse (ha.orElse hal)
  | a => exact ha.orElse hal
  | al => exact hal

/-- An instruction on memory is one of its forms, whatever the size of the value (R117, R119). -/
theorem onMemory_fits {f : Mode → Option Instr} (h : FormsFit f) (c : DecodeCtx) (o : AsmOperand) :
    Fits c (onMemory f o) := by
  cases o with
  | none | acc | imm _ _ | two _ _ => exact .none
  | addr v | addrX v => exact AddrClass.pick_fits (h c _) (h c _) (h c _) v.size
  | addrY v => exact AddrClass.pick_fits (h c _) (h c _) .none v.size
  | ind v | indX v | indY v | bracket v | bracketY v | stk v | stkIndY v =>
    exact AddrClass.pick_fits (h c _) .none .none v.size

/-- An immediate is made as wide as the register it meets (R118). -/
theorem immOf_width (w : Width) (sel : ByteSel) (v : AsmValue) : (immOf w sel v).width = w := by cases w <;> rfl

theorem withImm_fits {w : DecodeCtx → Width} {f : Operand → Option Instr} (h : OperandFormsFit w f) (c : DecodeCtx)
    (o : AsmOperand) : Fits c (withImm (w c) f o) := by
  obtain ⟨hmem, himm⟩ := h
  unfold withImm
  split
  next sel v => exact himm c _ (immOf_width (w c) sel v)
  next => exact onMemory_fits hmem c o

theorem bitOperand_fits (c : DecodeCtx) (o : AsmOperand) : Fits c (bitOperand c.mw o) := by
  unfold bitOperand
  split
  next sel v => exact .some (accImm_wf rfl rfl (immOf_width c.mw sel v))
  next => exact onMemory_fits bitForm_fits c o

theorem accOrMemory_fits {f : Mode → Option Instr} (hf : FormsFit f) {c : DecodeCtx} {i : Instr} (hi : i.wf c = true)
    (o : AsmOperand) : Fits c (accOrMemory i f o) := by
  unfold accOrMemory
  split
  next => exact .some hi
  next => exact onMemory_fits hf c o

theorem noOperand_fits {c : DecodeCtx} {i : Instr} (hi : i.wf c = true) (o : AsmOperand) : Fits c (noOperand i o) := by
  cases o with
  | none => exact .some hi
  | _ => exact .none

theorem shortBranch_fits {c : DecodeCtx} {f : Byte → Instr} (hf : ∀ b, (f b).wf c = true) (pc : Half)
    (o : AsmOperand) : Fits c (shortBranch pc f o) := by
  cases o with
  | addr v =>
    unfold shortBranch
    dsimp only
    split
    · exact .some (hf _)
    · exact .none
  | _ => exact .none

theorem relativeLong_fits {c : DecodeCtx} {f : Half → Instr} (hf : ∀ h, (f h).wf c = true) (pc : Half)
    (o : AsmOperand) : Fits c (relativeLong pc f o) := by
  cases o with
  | addr v => exact .some (hf _)
  | _ => exact .none

theorem jmpOperand_fits (c : DecodeCtx) (o : AsmOperand) : Fits c (jmpOperand o) := by
  cases o with
  | addr v => exact AddrClass.pick_fits .none (.some rfl) (.some rfl) v.size
  | ind v | indX v | bracket v => exact AddrClass.pick_fits .none (.some rfl) .none v.size
  | _ => exact .none

theorem jmlOperand_fits (c : DecodeCtx) (o : AsmOperand) : Fits c (jmlOperand o) := by
  cases o with
  | addr v => exact .some rfl
  | ind v | bracket v => exact AddrClass.pick_fits .none (.some rfl) .none v.size
  | _ => exact .none

theorem jsrOperand_fits (c : DecodeCtx) (o : AsmOperand) : Fits c (jsrOperand o) := by
  cases o with
  | addr v => exact AddrClass.pick_fits .none (.some rfl) (.some rfl) v.size
  | indX v => exact AddrClass.pick_fits .none (.some rfl) .none v.size
  | _ => exact .none

theorem jslOperand_fits (c : DecodeCtx) (o : AsmOperand) : Fits c (jslOperand o) := by
  cases o with
  | addr v => exact .some rfl
  | _ => exact .none

theorem banks_wf {c : DecodeCtx} {i : Instr} {dst src : Byte} (hi : i.operands = .banks (.banks dst src))
    (hx : i.xfeOk c = true) (h : c.native = false) : i.wf c = true := by
  simp [Instr.wf, hi, hx, Operands.wf, h]

/-- A block move has a text form outside native mode only, and there it has its bank bytes (R103 (b), R122). -/
theorem blockMove_fits {c : DecodeCtx} {f : BlockBanks → Instr} (hf : ∀ b, (f b).operands = .banks b)
    (hx : ∀ b, (f b).xfeOk c = true) (o : AsmOperand) : Fits c (blockMove c f o) := by
  cases o with
  | two src dst =>
    unfold blockMove
    dsimp only
    split
    next => exact .none
    next hn => exact .some (banks_wf (hf _) (hx _) (Bool.eq_false_iff.2 hn))
  | _ => exact .none

theorem maskByte_fits {c : DecodeCtx} {f : Byte → Instr} (hf : ∀ b, (f b).wf c = true) (o : AsmOperand) :
    Fits c (maskByte f o) := by
  cases o with
  | imm sel v => exact .some (hf _)
  | _ => exact .none

theorem peaOperand_fits (c : DecodeCtx) (o : AsmOperand) : Fits c (peaOperand o) := by
  cases o with
  | imm sel v => exact .some rfl
  | addr v => exact AddrClass.pick_fits .none (.some rfl) .none v.size
  | _ => exact .none

theorem peiOperand_fits (c : DecodeCtx) (o : AsmOperand) : Fits c (peiOperand o) := by
  cases o with
  | ind v => exact AddrClass.pick_fits (.some rfl) .none .none v.size
  | _ => exact .none

theorem signatureOperand_fits {c : DecodeCtx} {f : Byte → Instr} (hf : ∀ b, (f b).wf c = true) (o : AsmOperand) :
    Fits c (signatureOperand f o) := by
  cases o with
  | none => exact .some (hf _)
  | imm sel v => exact .some (hf _)
  | _ => exact .none

/-! ## The mnemonics -/

/-- Settles O60: each mnemonic takes one of the operand formats, with forms that fit; XFE asks for its opcode first. -/
theorem assemblerRespectsWidths : Obligations.AssemblerRespectsWidths := by
  intro c pc m o
  show Fits c (assemble c pc m o)
  cases m with
  | lda => exact withImm_fits ldaForm_fits c o
  | adc => exact withImm_fits adcForm_fits c o
  | sbc => exact withImm_fits sbcForm_fits c o
  | and => exact withImm_fits andForm_fits c o
  | ora => exact withImm_fits oraForm_fits c o
  | eor => exact withImm_fits eorForm_fits c o
  | cmp => exact withImm_fits cmpForm_fits c o
  | ldx => exact withImm_fits ldxForm_fits c o
  | ldy => exact withImm_fits ldyForm_fits c o
  | cpx => exact withImm_fits cpxForm_fits c o
  | cpy => exact withImm_fits cpyForm_fits c o
  | bit => exact bitOperand_fits c o
  | sta => exact onMemory_fits staForm_fits c o
  | stx => exact onMemory_fits stxForm_fits c o
  | sty => exact onMemory_fits styForm_fits c o
  | stz => exact onMemory_fits stzForm_fits c o
  | tsb => exact onMemory_fits tsbForm_fits c o
  | trb => exact onMemory_fits trbForm_fits c o
  | asl => exact accOrMemory_fits aslForm_fits rfl o
  | lsr => exact accOrMemory_fits lsrForm_fits rfl o
  | rol => exact accOrMemory_fits rolForm_fits rfl o
  | ror => exact accOrMemory_fits rorForm_fits rfl o
  | inc => exact accOrMemory_fits incForm_fits rfl o
  | dec => exact accOrMemory_fits decForm_fits rfl o
  | bcc | bcs | beq | bmi | bne | bpl | bra | bvc | bvs => exact shortBranch_fits (fun _ => rfl) pc o
  | brl | per => exact relativeLong_fits (fun _ => rfl) pc o
  | jmp => exact jmpOperand_fits c o
  | jml => exact jmlOperand_fits c o
  | jsr => exact jsrOperand_fits c o
  | jsl => exact jslOperand_fits c o
  | mvn | mvp => exact blockMove_fits (fun _ => rfl) (fun _ => rfl) o
  | rep | sep => exact maskByte_fits (fun _ => rfl) o
  | pea => exact peaOperand_fits c o
  | pei => exact peiOperand_fits c o
  | brk | cop => exact signatureOperand_fits (fun _ => rfl) o
  | xfe =>
    show Fits c (if c.xfe.isSome then noOperand .xfe o else none)
    split
    next h => exact noOperand_fits (Instr.wf_iff.2 ⟨rfl, fun _ => h⟩) o
    next => exact .none
  | clc | cld | cli | clv | dex | dey | inx | iny | nop | pha | phb | phd | phk | php | phx | phy | pla | plb | pld | plp
    | plx | ply | rti | rtl | rts | sec | sed | sei | stp | tax | tay | tcd | tcs | tdc | tsc | tsx | txa | txs | txy
    | tya | tyx | wai | wdm | xba | xce => exact noOperand_fits rfl o

end Sys2Proof.Machine

/-! # Proofs: the addressing modes

Where the operand of each mode stands in memory, as a number: the direct page and the stack-relative location in bank 0
(R136, R143, R154), the absolute and long addresses with their index (R132, R134, R135, R144 to R146), and the addresses
that a pointer in bank 0 gives (R139 to R142, R150, R151, R155). -/

namespace Sys2Proof.Machine

/-! ## Bases and sums as numbers -/

/-- An effective address from its number. -/
theorem EA.eq_of_toNat {a : Word} {n : Nat} (h : a.toNat = n) (k : Wrap) : (⟨a, k⟩ : EA) = ⟨BitVec.ofNat 32 n, k⟩ := by
  subst h
  rw [BitVec.ofNat_toNat, BitVec.setWidth_eq]

/-- When direct addresses stay inside the page DH: DL is 0 in `emu8` (R136). -/
theorem State.directInPage_iff (s : State) :
    (s.emu8 = true ∧ halfLo s.dr = 0) ↔ (s.emu8 = true ∧ s.dr.toNat % 256 = 0) := by
  rw [← BitVec.toNat_inj, halfLo_toNat, zero_byte_toNat]

/-- A 16-bit register and an operand byte, added modulo `2^16` (R136, R140, R154). -/
theorem half_add_byte_toNat (h : Half) (b : Byte) : (h + b.setWidth 16).toNat = (h.toNat + b.toNat) % 65536 := by
  have hb := b.isLt
  rw [BitVec.toNat_add, BitVec.toNat_setWidth]
  omega

/-- A byte in the page of a register whose low byte is 0 (R136). -/
theorem page_toNat {h : Half} (hlow : h.toNat % 256 = 0) (b : Byte) :
    (joinBytes (halfHi h) b).toNat = h.toNat + b.toNat := by
  rw [joinBytes_toNat, halfHi_toNat]
  omega

theorem State.dataAddr_toNat (s : State) (off : Half) : (s.dataAddr off).toNat = s.dbr.toNat * 65536 + off.toNat :=
  bankAddr_toNat s.dbr off

/-! ## The address formers -/

/-- `Dp` outside the page: bank 0, the sum cut to 16 bits (R136). -/
theorem State.dp_bank0 {s : State} (h : ¬(s.emu8 = true ∧ s.dr.toNat % 256 = 0)) (off : Byte) :
    s.dp off = ⟨BitVec.ofNat 32 ((s.dr.toNat + off.toNat) % 65536), .bank0⟩ := by
  rw [State.dp, if_neg (mt s.directInPage_iff.1 h)]
  exact EA.eq_of_toNat (by rw [zextHalf_toNat, half_add_byte_toNat]) .bank0

/-- `Dp` inside the page DH (R136). -/
theorem State.dp_page {s : State} (h : s.emu8 = true ∧ s.dr.toNat % 256 = 0) (off : Byte) :
    s.dp off = ⟨BitVec.ofNat 32 (s.dr.toNat + off.toNat), .page⟩ := by
  rw [State.dp, if_pos (s.directInPage_iff.2 h)]
  exact EA.eq_of_toNat (by rw [zextHalf_toNat, page_toNat h.2]) .page

/-- `Dpx` outside the page: bank 0, the sum of the three cut to 16 bits (R143). -/
theorem State.dpIndexed_bank0 {s : State} (h : ¬(s.emu8 = true ∧ s.dr.toNat % 256 = 0)) (off : Byte) (index : Word) :
    s.dpIndexed off index = ⟨BitVec.ofNat 32 ((s.dr.toNat + off.toNat + index.toNat) % 65536), .bank0⟩ := by
  rw [State.dpIndexed, if_neg (mt s.directInPage_iff.1 h)]
  refine EA.eq_of_toNat ?_ .bank0
  rw [zextHalf_toNat, BitVec.toNat_add, half_add_byte_toNat, lowHalf_toNat]
  exact (Nat.add_mod ..).symm

/-- `Dpx` inside the page DH: offset and index are added modulo 256 (R143). -/
theorem State.dpIndexed_page {s : State} (h : s.emu8 = true ∧ s.dr.toNat % 256 = 0) (off : Byte) (index : Word) :
    s.dpIndexed off index = ⟨BitVec.ofNat 32 (s.dr.toNat + (off.toNat + index.toNat) % 256), .page⟩ := by
  rw [State.dpIndexed, if_pos (s.directInPage_iff.2 h)]
  refine EA.eq_of_toNat ?_ .page
  rw [zextHalf_toNat, page_toNat h.2, BitVec.toNat_add, lowByte_toNat]
  exact congrArg (s.dr.toNat + ·) (Nat.add_mod_mod ..)

theorem State.dpLinear_eq (s : State) (off : Byte) :
    s.dpLinear off = ⟨BitVec.ofNat 32 ((s.dr.toNat + off.toNat) % 65536), .bank0⟩ :=
  EA.eq_of_toNat (by rw [zextHalf_toNat, half_add_byte_toNat]) .bank0

theorem State.stackRel_eq (s : State) (off : Byte) :
    s.stackRel off = ⟨BitVec.ofNat 32 ((s.sp.toNat + off.toNat) % 65536), .bank0⟩ :=
  EA.eq_of_toNat (by rw [zextHalf_toNat, half_add_byte_toNat]) .bank0

/-- A base and an index: the whole sum, cut to the address size of the mode (R132). -/
theorem State.indexed_eq (s : State) {base : Word} {n : Nat} (h : base.toNat = n) (index : Word) :
    s.indexed base index = ⟨BitVec.ofNat 32 ((n + index.toNat) % if s.native then 2 ^ 32 else 2 ^ 24), .lin⟩ := by
  subst h
  refine EA.eq_of_toNat ?_ .lin
  split
  · exact BitVec.toNat_add ..
  · rw [low24_toNat, BitVec.toNat_add]
    exact Nat.mod_mod_of_dvd _ (Nat.pow_dvd_pow 2 (by decide))

/-- A two-byte pointer, completed by DBR (R139, R142, R150, R155). -/
theorem State.dataAddr_pointer_toNat (s : State) (p : EA) :
    (s.dataAddr (lowHalf (s.memRead p 2))).toNat =
      s.dbr.toNat * 65536 + littleEndian (fun k => Mem.read s.mem (s.physByte p k)) 2 := by
  rw [State.dataAddr_toNat, State.lowHalf_memRead_toNat]

/-- A three-byte pointer, which brings its own bank (R140, R141, R151). -/
theorem State.longPointer_toNat (s : State) (off : Byte) :
    (s.memRead (s.dpLinear off) 3).toNat = littleEndian (fun k => Mem.read s.mem (s.physByte
      ⟨BitVec.ofNat 32 ((s.dr.toNat + off.toNat) % 65536), .bank0⟩ k)) 3 := by
  rw [State.dpLinear_eq]
  exact s.memRead_toNat _ (by decide)

/-! ## The modes -/

/-- Settles O17: `Dp` and `Dpx` outside and inside the page; the stack-relative mode never uses the page. -/
theorem directAddresses : Obligations.DirectAddresses := fun s off =>
  ⟨fun hbank => ⟨State.dp_bank0 hbank off, State.dpIndexed_bank0 hbank off s.ix, State.dpIndexed_bank0 hbank off s.iy⟩,
    fun hpage => ⟨State.dp_page hpage off, State.dpIndexed_page hpage off s.ix, State.dpIndexed_page hpage off s.iy⟩,
    s.stackRel_eq off⟩

/-- Settles O18: the base is DBR with the operand or the operand alone, and an index is added to the whole of it. -/
theorem absoluteAddresses : Obligations.AbsoluteAddresses := fun s addr long =>
  have hbase := s.dataAddr_toNat addr
  have hlong := zextLong_toNat long
  ⟨EA.eq_of_toNat hbase .lin, s.indexed_eq hbase s.ix, s.indexed_eq hbase s.iy, EA.eq_of_toNat hlong .lin,
    s.indexed_eq hlong s.ix⟩

/-- Settles O19: the pointer is read at its own address, and the address it gives is a base as in O18. -/
theorem indirectAddresses : Obligations.IndirectAddresses := fun s off =>
  have hlong := s.longPointer_toNat off
  ⟨EA.eq_of_toNat (s.dataAddr_pointer_toNat _) .lin, EA.eq_of_toNat (s.dataAddr_pointer_toNat _) .lin,
    s.indexed_eq (s.dataAddr_pointer_toNat _) s.iy, EA.eq_of_toNat hlong .lin, s.indexed_eq hlong s.iy,
    s.indexed_eq (s.dataAddr_pointer_toNat _) s.iy⟩

end Sys2Proof.Machine

/-! # Proofs: loads and stores

LDA, LDX and LDY (R170 to R173, R22, R26) and STA, STX, STY and STZ (R174 to R178) in every form. Each form is the one
load or store of its register, run at its operand; so each statement is proved once, for any operand or mode. -/

namespace Sys2Proof.Machine

/-! ## Recording a read, writing memory: frames -/

theorem notePointer_frame (m : Mode) (s : State) : unchangedBut [] s (m.notePointer s) := by
  unfold Mode.notePointer
  split
  · exact .refl s
  · exact noteReads_frame .pointerRead _ _ s

theorem noteData_frame (m : Mode) (n : Nat) (s : State) : unchangedBut [] s (m.noteData n s) :=
  (notePointer_frame m s).trans (noteReads_frame .dataRead (m.ea s) n _)

theorem note_frame (w : Width) (o : Operand) (s : State) : unchangedBut [] s (o.note w s) := by
  cases o with
  | imm _ => exact .refl s
  | mem m => exact noteData_frame m w.bytes s

theorem write8_frame (k : BusKind) (a : Word) (v : Byte) (s : State) : unchangedBut [.mem] s (s.write8 k a v) := by
  intro q hq
  cases q with
  | mem => simp at hq
  | modes => simp [Piece.same]
  | _ => rfl

theorem writeBytes_frame (ea : EA) (v : Word) (l : List Nat) (s : State) :
    unchangedBut [.mem] s (s.writeBytes ea v l) := by
  induction l generalizing s with
  | nil => exact (unchangedBut.refl s).mono (by decide)
  | cons i l ih => exact ((write8_frame _ _ _ s).trans (ih _)).mono (by decide)

theorem memWrite_frame (ea : EA) (n : Nat) (v : Word) (s : State) : unchangedBut [.mem] s (s.memWrite ea n v) :=
  writeBytes_frame ea v _ s

/-! ## What was stored -/

/-- A store is seen from any state in which memory and the addresses of bytes are the same. -/
theorem storedAt.of_frame {s u t : State} {ea : EA} {n : Nat} {v : Word} (h : storedAt u t ea n v)
    (hframe : unchangedBut [] s u) : storedAt s t ea n v := by
  obtain ⟨-, h16⟩ : u.e8 = s.e8 ∧ u.e16 = s.e16 := hframe .modes (by decide)
  have hmem : ∀ a, Mem.read u.mem a = Mem.read s.mem a := hframe .mem (by decide)
  have haddr : u.physByte ea = s.physByte ea :=
    funext (State.physByte_congr (hframe .cfg (by decide)) h16 (hframe .pbr (by decide)) ea)
  simpa only [storedAt, haddr, hmem] using h

theorem storedAt.congr {s t u : State} {ea : EA} {n : Nat} {v : Word} (h : storedAt s t ea n v) (e : u.mem = t.mem) :
    storedAt s u ea n v := by
  rw [storedAt, e]
  exact h

/-- The bytes stored of a register at its width are those of the whole register (R78). -/
theorem storedAt.of_trunc {s t : State} {ea : EA} {w : Width} {v : Word} (h : storedAt s t ea w.bytes (w.trunc v)) :
    storedAt s t ea w.bytes v := by
  obtain ⟨hbytes, hrest⟩ := h
  exact ⟨fun k hk => (hbytes k hk).trans (byteOf_trunc w v hk), hrest⟩

/-! ## Each form is the one load or store of its register -/

theorem exec_of_ldaForm {o : Operand} {i : Instr} (h : ldaForm o = some i) (s : State) : exec i s = loadA o s := by
  cases o with
  | imm _ => cases h; rfl
  | mem m => cases m <;> cases h <;> rfl

theorem exec_of_ldxForm {o : Operand} {i : Instr} (h : ldxForm o = some i) (s : State) : exec i s = loadX o s := by
  cases o with
  | imm _ => cases h; rfl
  | mem m => cases m <;> cases h <;> rfl

theorem exec_of_ldyForm {o : Operand} {i : Instr} (h : ldyForm o = some i) (s : State) : exec i s = loadY o s := by
  cases o with
  | imm _ => cases h; rfl
  | mem m => cases m <;> cases h <;> rfl

theorem exec_of_staForm {m : Mode} {i : Instr} (h : staForm m = some i) (s : State) :
    exec i s = store s.mw (s.mw.trunc s.a) m s := by cases m <;> cases h <;> rfl

theorem exec_of_stxForm {m : Mode} {i : Instr} (h : stxForm m = some i) (s : State) :
    exec i s = store s.xw (s.xw.trunc s.x) m s := by cases m <;> cases h <;> rfl

theorem exec_of_styForm {m : Mode} {i : Instr} (h : styForm m = some i) (s : State) :
    exec i s = store s.xw (s.xw.trunc s.y) m s := by cases m <;> cases h <;> rfl

theorem exec_of_stzForm {m : Mode} {i : Instr} (h : stzForm m = some i) (s : State) : exec i s = store s.mw 0 m s := by
  cases m <;> cases h <;> rfl

/-! ## Loads -/

/-- The end of every instruction that sets N and Z of a value and advances: `u` is the state in which some pieces `c`
have taken the value, and the flags and PC do not depend on which. -/
theorem setNZ_advance {s u : State} {c : List Piece} (hframe : unchangedBut c s u) (hc : Piece.p ∉ c ∧ Piece.pc ∉ c)
    (w : Width) (v : Word) (len : Nat) :
    ((u.setNZ w v).advance len).p = s.p.withNZ w v.toNat ∧ pcMoves s ((u.setNZ w v).advance len) len ∧
      unchangedBut (c ++ [.p] ++ [.pc]) s ((u.setNZ w v).advance len) := by
  obtain ⟨hcp, hcpc⟩ := hc
  have hp : u.p = s.p := hframe .p hcp
  have hpc : u.pc = s.pc := hframe .pc hcpc
  refine ⟨?_, advance_pcMoves_of_pc hpc len, (hframe.trans (setNZ_frame w v u)).trans (advance_frame len _)⟩
  rw [State.advance_p, State.setNZ_p, hp]

theorem loadA_result (o : Operand) (s : State) :
    ∃ t, loadA o s = .next t ∧ writesLow s.mw s.a (o.value s.mw s).toNat t.a ∧
      t.p = s.p.withNZ s.mw (o.value s.mw s).toNat ∧ pcMoves s t o.len ∧ unchangedBut [.a, .p, .pc] s t := by
  have hwrite := State.writeA_spec s.mw (o.value s.mw s) (o.note s.mw s)
  rw [Operand.note_a] at hwrite
  exact ⟨_, rfl, hwrite, setNZ_advance ((note_frame s.mw o s).trans (writeA_frame _ _ _)) (by decide) _ _ _⟩

theorem loadX_result (o : Operand) (s : State) :
    ∃ t, loadX o s = .next t ∧ writesLow s.xw s.x (o.value s.xw s).toNat t.x ∧
      t.p = s.p.withNZ s.xw (o.value s.xw s).toNat ∧ pcMoves s t o.len ∧ unchangedBut [.x, .p, .pc] s t := by
  have hwrite := State.writeX_spec s.xw (o.value s.xw s) (o.note s.xw s)
  rw [Operand.note_x] at hwrite
  exact ⟨_, rfl, hwrite, setNZ_advance ((note_frame s.xw o s).trans (writeX_frame _ _ _)) (by decide) _ _ _⟩

theorem loadY_result (o : Operand) (s : State) :
    ∃ t, loadY o s = .next t ∧ writesLow s.xw s.y (o.value s.xw s).toNat t.y ∧
      t.p = s.p.withNZ s.xw (o.value s.xw s).toNat ∧ pcMoves s t o.len ∧ unchangedBut [.y, .p, .pc] s t := by
  have hwrite := State.writeY_spec s.xw (o.value s.xw s) (o.note s.xw s)
  rw [Operand.note_y] at hwrite
  exact ⟨_, rfl, hwrite, setNZ_advance ((note_frame s.xw o s).trans (writeY_frame _ _ _)) (by decide) _ _ _⟩

/-- Settles O20: every form is `loadA` at its operand. -/
theorem loadAccumulatorResult : Obligations.LoadAccumulatorResult := fun o i s h => by
  rw [exec_of_ldaForm h s]
  exact loadA_result o s

/-- Settles O21: every form is `loadX` or `loadY` at its operand. -/
theorem loadIndexResult : Obligations.LoadIndexResult := fun o i s => by
  constructor
  · intro h
    rw [exec_of_ldxForm h s]
    exact loadX_result o s
  · intro h
    rw [exec_of_ldyForm h s]
    exact loadY_result o s

/-! ## Stores -/

/-- An instruction that stores the low bits of a value at a width: the address is that of the state before, since
reading the pointer leaves memory and registers as they were. -/
theorem storesOnly_of_exec_eq_store {i : Instr} {s : State} {w : Width} {v : Word} {m : Mode}
    (h : exec i s = store w (w.trunc v) m s) : storesOnly i s (m.ea s) w.bytes v m.len := by
  have hpointer := notePointer_frame m s
  have hframe := hpointer.trans (memWrite_frame (m.ea s) w.bytes (w.trunc v) _)
  have hstored := ((m.notePointer s).memWrite_storedAt (m.ea s) w.bytes_le (w.trunc v)).of_frame hpointer
  exact ⟨_, h, hstored.of_trunc.congr rfl, advance_pcMoves_of_pc (hframe .pc (by decide)) m.len,
    hframe.trans (advance_frame m.len _)⟩

theorem Width.trunc_zero (w : Width) : w.trunc 0 = 0 := by cases w <;> rfl

/-- Settles O22: every form is `store` of its register, or of 0, at the register's width. -/
theorem storeResult : Obligations.StoreResult := fun m i s =>
  ⟨fun h => storesOnly_of_exec_eq_store (exec_of_staForm h s),
    fun h => storesOnly_of_exec_eq_store (exec_of_stxForm h s),
    fun h => storesOnly_of_exec_eq_store (exec_of_styForm h s),
    fun h => storesOnly_of_exec_eq_store (by rw [Width.trunc_zero, exec_of_stzForm h s])⟩

end Sys2Proof.Machine

/-! # Proofs: addition and subtraction

ADC and SBC in every form: binary (R191, R194, R195), decimal on packed decimal operands (R192, R193, R196), and decimal
on an operand with a digit above 9 (log 4). Every form is `addOp` or `subOp` at its operand, and both write the result
of the ALU in the same way; so what is written is said once, and each statement adds what its result is. -/

namespace Sys2Proof.Machine

/-! ## What is written -/

/-- The state after ADC or SBC with the result `q` of the ALU. -/
def State.afterAlu (o : Operand) (q : AluResult) (s : State) : State := ((o.note s.mw s).putAlu s.mw q).advance o.len

theorem exec_of_adcForm {o : Operand} {i : Instr} (h : adcForm o = some i) (s : State) :
    exec i s = .next (s.afterAlu o (s.adcResult (o.value s.mw s))) := by
  cases o with
  | imm _ => cases h; rfl
  | mem m => cases m <;> cases h <;> rfl

theorem exec_of_sbcForm {o : Operand} {i : Instr} (h : sbcForm o = some i) (s : State) :
    exec i s = .next (s.afterAlu o (s.sbcResult (o.value s.mw s))) := by
  cases o with
  | imm _ => cases h; rfl
  | mem m => cases m <;> cases h <;> rfl

theorem useFree_frame (k : Nat) (s : State) : unchangedBut [.free] s (s.useFree k) := by
  intro q hq
  cases q with
  | free => simp at hq
  | modes | mem => simp [Piece.same]
  | _ => rfl

theorem putAlu_frame (w : Width) (q : AluResult) (s : State) : unchangedBut [.a, .p, .free] s (s.putAlu w q) :=
  ((writeA_frame w q.r s).trans (setP_frame _ _)).trans (useFree_frame q.drawn _)

theorem State.afterAlu_frame (o : Operand) (q : AluResult) (s : State) :
    unchangedBut [.free, .a, .p, .pc] s (s.afterAlu o q) :=
  (((note_frame s.mw o s).trans (putAlu_frame s.mw q _)).trans (advance_frame o.len _)).mono (by decide)

theorem State.afterAlu_a (o : Operand) (q : AluResult) (s : State) :
    writesLow s.mw s.a q.r.toNat (s.afterAlu o q).a := by
  have hwrite := State.writeA_spec s.mw q.r (o.note s.mw s)
  rwa [Operand.note_a] at hwrite

theorem State.afterAlu_p (o : Operand) (q : AluResult) (s : State) :
    (s.afterAlu o q).p = { s.p with n := q.n, v := q.v, z := q.z, c := q.c } := by
  rw [← Operand.note_p s.mw o s]
  rfl

theorem State.afterAlu_freeIdx (o : Operand) (q : AluResult) (s : State) :
    (s.afterAlu o q).freeIdx = s.freeIdx + q.drawn :=
  congrArg (· + q.drawn) (Operand.note_freeIdx s.mw o s)

theorem State.afterAlu_pcMoves (o : Operand) (q : AluResult) (s : State) : pcMoves s (s.afterAlu o q) o.len :=
  advance_pcMoves_of_pc (by simp) o.len

/-- Neither ADC nor SBC changes a width, so the accumulator can be read back at the width it was written at. -/
theorem State.afterAlu_amNat (o : Operand) (q : AluResult) (s : State) :
    (s.afterAlu o q).amNat = q.r.toNat % 2 ^ s.mw.bits := by
  obtain ⟨h8, h16⟩ : (s.afterAlu o q).e8 = s.e8 ∧ (s.afterAlu o q).e16 = s.e16 :=
    s.afterAlu_frame o q .modes (by decide)
  have hmw : (s.afterAlu o q).mw = s.mw := by rw [State.mw, h8, h16, State.afterAlu_p, State.mw]
  obtain ⟨hlow, -⟩ := s.afterAlu_a o q
  rw [State.amNat, hmw, hlow]

theorem writesLow.congr {w : Width} {old new : Word} {a b : Nat} (h : writesLow w old a new)
    (e : a % 2 ^ w.bits = b % 2 ^ w.bits) : writesLow w old b new := ⟨h.1.trans e, h.2⟩

theorem State.afterAlu_writesAmNat (o : Operand) (q : AluResult) (s : State) :
    writesLow s.mw s.a (s.afterAlu o q).amNat (s.afterAlu o q).a :=
  (s.afterAlu_a o q).congr (by rw [State.afterAlu_amNat, Nat.mod_mod])

/-! ## Signed numbers -/

theorem signedAt_eq {w : Width} {n : Nat} (h : n < 2 ^ w.bits) :
    signedAt w n = if n < 2 ^ (w.bits - 1) then (n : Int) else n - 2 ^ w.bits := by
  cases w <;> simp only [signedAt, Width.bits, Int.bmod_def] at h ⊢ <;> omega

theorem Width.msb_eq_decide {w : Width} {v : Word} (h : v.toNat < 2 ^ w.bits) :
    w.msb v = decide (2 ^ (w.bits - 1) ≤ v.toNat) := by
  rw [Width.msb_eq, Nat.testBit_eq_decide_div_mod_eq, decide_eq_decide]
  cases w <;> simp only [Width.bits] at h ⊢ <;> omega

/-- The complement of `m` stands for `-m - 1` (R195). -/
theorem signedAt_not {w : Width} {m : Word} (h : m.toNat < 2 ^ w.bits) :
    signedAt w (w.not m).toNat = -signedAt w m.toNat - 1 := by
  have hnot := width_not_toNat w m h
  rw [signedAt_eq h, signedAt_eq (by omega), hnot]
  cases w <;> simp only [Width.bits] at h ⊢ <;> omega

/-! ## Binary sums and differences -/

theorem addSum_of_lt {w : Width} {a m : Word} (ha : a.toNat < 2 ^ w.bits) (hm : m.toNat < 2 ^ w.bits) (c : Bool) :
    addSum w a m c = a.toNat + m.toNat + c.toNat := by
  rw [addSum, Width.trunc_toNat, Width.trunc_toNat, Nat.mod_eq_of_lt ha, Nat.mod_eq_of_lt hm]

/-- Adding the complement and a carry subtracts; a clear carry takes one more (R195). -/
theorem addSum_not {w : Width} {a m : Word} (ha : a.toNat < 2 ^ w.bits) (hm : m.toNat < 2 ^ w.bits) (c : Bool) :
    addSum w a (w.not m) c = 2 ^ w.bits + a.toNat - m.toNat - (!c).toNat := by
  have hnot := width_not_toNat w m hm
  rw [addSum_of_lt ha (by omega), hnot]
  cases c <;> simp only [Bool.not_false, Bool.not_true, Bool.toNat_false, Bool.toNat_true] <;> omega

/-- The carry of a subtraction is "no borrow" (R195). -/
theorem addBinary_not_cout {w : Width} {a m : Word} (ha : a.toNat < 2 ^ w.bits) (hm : m.toNat < 2 ^ w.bits) (c : Bool) :
    (addBinary w a (w.not m) c).cout = decide (m.toNat + (!c).toNat ≤ a.toNat) := by
  have hc := Bool.toNat_le (!c)
  rw [addBinary_cout, addSum_not ha hm, decide_eq_decide]
  omega

/-- V is signed overflow: two operands of one sign and a result of the other (R191). -/
theorem addBinary_v {w : Width} {a m : Word} (ha : a.toNat < 2 ^ w.bits) (hm : m.toNat < 2 ^ w.bits) (c : Bool) :
    (addBinary w a m c).v = outOfRange w (signedAt w a.toNat + signedAt w m.toNat + c.toNat) := by
  have hc := Bool.toNat_le c
  have hr : (addBinary w a m c).r.toNat = (a.toNat + m.toNat + c.toNat) % 2 ^ w.bits := by
    rw [addBinary_r, addSum_of_lt ha hm]
  have hrlt : (addBinary w a m c).r.toNat < 2 ^ w.bits := by
    rw [hr]
    exact Nat.mod_lt _ (Nat.two_pow_pos _)
  have hv : (addBinary w a m c).v = (w.msb a == w.msb m && w.msb (addBinary w a m c).r != w.msb a) := rfl
  rw [hv, Width.msb_eq_decide ha, Width.msb_eq_decide hm, Width.msb_eq_decide hrlt, hr, signedAt_eq ha, signedAt_eq hm,
    outOfRange, Bool.eq_iff_iff]
  simp only [Bool.and_eq_true, beq_iff_eq, bne_iff_ne, ne_eq, decide_eq_decide, Bool.not_eq_true',
    Bool.and_eq_false_iff, decide_eq_false_iff_not]
  cases w <;> simp only [Width.bits] at ha hm ⊢ <;> omega

/-- V of a subtraction is signed overflow of the difference (R195). -/
theorem addBinary_not_v {w : Width} {a m : Word} (ha : a.toNat < 2 ^ w.bits) (hm : m.toNat < 2 ^ w.bits) (c : Bool) :
    (addBinary w a (w.not m) c).v = outOfRange w (signedAt w a.toNat - signedAt w m.toNat - (!c).toNat) := by
  have hnot := width_not_toNat w m hm
  rw [addBinary_v ha (by omega), signedAt_not hm]
  congr 1
  cases c <;> simp only [Bool.not_false, Bool.not_true, Bool.toNat_false, Bool.toNat_true] <;> omega

theorem State.am_lt (s : State) : s.am.toNat < 2 ^ s.mw.bits := Width.trunc_lt s.mw s.a

/-- V of an addition to the accumulator, in binary and, where `DECIMAL_V` says so, in decimal (R193, R194). -/
theorem State.add_overflow (s : State) (o : Operand) :
    (addBinary s.mw s.am (o.value s.mw s) s.p.c).v =
      outOfRange s.mw (signedAt s.mw s.amNat + signedAt s.mw (o.value s.mw s).toNat + s.p.c.toNat) := by
  rw [addBinary_v s.am_lt (o.value_lt s.mw s), State.am_toNat]

/-- V of a subtraction from the accumulator, in binary and, where `DECIMAL_V` says so, in decimal (R193, R195). -/
theorem State.sub_overflow (s : State) (o : Operand) :
    (addBinary s.mw s.am (s.mw.not (o.value s.mw s)) s.p.c).v =
      outOfRange s.mw (signedAt s.mw s.amNat - signedAt s.mw (o.value s.mw s).toNat - (!s.p.c).toNat) := by
  rw [addBinary_not_v s.am_lt (o.value_lt s.mw s), State.am_toNat]

/-- A binary result: the accumulator, N and Z take the sum, whose carry and overflow go to C and V (R194). -/
theorem aluBinary_result (o : Operand) (s : State) (a m : Word) (cin : Bool) :
    let t := s.afterAlu o (aluBinary s.mw (addBinary s.mw a m cin))
    writesLow s.mw s.a (addSum s.mw a m cin) t.a ∧
      t.p = { s.p.withNZ s.mw (addSum s.mw a m cin) with
        c := (addBinary s.mw a m cin).cout, v := (addBinary s.mw a m cin).v } ∧
      pcMoves s t o.len ∧ unchangedBut [.a, .p, .pc] s t := by
  intro t
  have hr : (addBinary s.mw a m cin).r.toNat % 2 ^ s.mw.bits = addSum s.mw a m cin % 2 ^ s.mw.bits := by
    rw [addBinary_r, Nat.mod_mod]
  refine ⟨(s.afterAlu_a o _).congr hr, ?_, s.afterAlu_pcMoves o _,
    (s.afterAlu_frame o _).remove (s.afterAlu_freeIdx o _)⟩
  rw [← Status.withNZ_congr s.mw hr, ← Status.nz_eq]
  exact s.afterAlu_p o _

/-- Settles O23: a binary result of the ALU; SBC adds the complement. -/
theorem binaryAddSubtract : Obligations.BinaryAddSubtract := by
  intro o i s hd w top m
  have ham := s.am_lt
  have hm := o.value_lt s.mw s
  constructor
  · intro h r
    have hresult : s.adcResult (o.value s.mw s) = aluBinary s.mw (addBinary s.mw s.am (o.value s.mw s) s.p.c) := by
      simp [State.adcResult, hd]
    have halu := aluBinary_result o s s.am (o.value s.mw s) s.p.c
    rw [addBinary_cout, State.add_overflow, addSum_of_lt ham hm, State.am_toNat, ← hresult] at halu
    exact ⟨_, exec_of_adcForm h s, halu⟩
  · intro h r
    have hresult : s.sbcResult (o.value s.mw s) =
        aluBinary s.mw (addBinary s.mw s.am (s.mw.not (o.value s.mw s)) s.p.c) := by
      simp [State.sbcResult, hd]
    have halu := aluBinary_result o s s.am (s.mw.not (o.value s.mw s)) s.p.c
    rw [addBinary_not_cout ham hm, State.sub_overflow, addSum_not ham hm, State.am_toNat, ← hresult] at halu
    exact ⟨_, exec_of_sbcForm h s, halu⟩

/-! ## Packed decimal numbers -/

theorem bcdValid_iff (v : Word) (n : Nat) : bcdValid v n = true ↔ allDecimal n v.toNat := by
  induction n with
  | zero => simp [bcdValid, allDecimal]
  | succ n ih =>
    rw [bcdValid, Bool.and_eq_true, decide_eq_true_iff, ih]
    exact Nat.forall_lt_succ_right.symm

theorem decimalNumber_succ (n v : Nat) : decimalNumber (n + 1) v = decimalNumber n v + v / 16 ^ n % 16 * 10 ^ n := by
  simp [decimalNumber, List.range_succ]

theorem decValue_eq (v : Word) (n : Nat) : decValue v n = decimalNumber n v.toNat := by
  induction n with
  | zero => rfl
  | succ n ih => rw [decValue, ih, decimalNumber_succ, digit]

theorem decimalNumber_lt {n v : Nat} (h : allDecimal n v) : decimalNumber n v < 10 ^ n := by
  induction n with
  | zero => exact Nat.one_pos
  | succ n ih =>
    have hlow := ih fun k hk => h k (by omega)
    have htop := Nat.mul_le_mul_right (10 ^ n) (h n (by omega))
    rw [decimalNumber_succ, Nat.pow_succ]
    omega

theorem bcdNat_lt (k n : Nat) : bcdNat k n < 16 ^ n := by
  induction n with
  | zero => exact Nat.one_pos
  | succ n ih =>
    have htop : k / 10 ^ n % 10 * 16 ^ n ≤ 15 * 16 ^ n := Nat.mul_le_mul_right _ (by omega)
    rw [bcdNat, Nat.pow_succ]
    omega

/-- The hexadecimal digits of `bcd(k)` are the decimal digits of `k` (R192). -/
theorem bcdNat_digit (k : Nat) {n j : Nat} (hj : j < n) : bcdNat k n / 16 ^ j % 16 = k / 10 ^ j % 10 := by
  induction n with
  | zero => omega
  | succ n ih =>
    have hlt := bcdNat_lt k n
    rw [bcdNat]
    obtain hjn | rfl := Nat.lt_succ_iff_lt_or_eq.1 hj
    · have hpow : 16 ^ n = 16 ^ j * (16 * 16 ^ (n - j - 1)) := by
        rw [← Nat.pow_succ', ← Nat.pow_add]
        congr 1
        omega
      have hshift : k / 10 ^ n % 10 * 16 ^ n = 16 ^ j * (16 * (k / 10 ^ n % 10 * 16 ^ (n - j - 1))) := by
        rw [hpow]
        ring
      rw [hshift, Nat.add_mul_div_left _ _ (Nat.pow_pos (by decide)), Nat.add_mul_mod_self_left, ih hjn]
    · rw [Nat.add_mul_div_right _ _ (Nat.pow_pos (by decide)), Nat.div_eq_of_lt hlt]
      omega

theorem bcdNat_allDecimal (k n : Nat) : allDecimal n (bcdNat k n) := fun j hj => by
  rw [bcdNat_digit k hj]
  omega

theorem decimalNumber_congr {n u v : Nat} (h : ∀ j < n, u / 16 ^ j % 16 = v / 16 ^ j % 16) :
    decimalNumber n u = decimalNumber n v := by
  unfold decimalNumber
  congr 1
  exact List.map_congr_left fun j hj => by rw [h j (List.mem_range.1 hj)]

/-- The number `bcd(k)` stands for (R192). -/
theorem decimalNumber_bcdNat (k n : Nat) : decimalNumber n (bcdNat k n) = k % 10 ^ n := by
  induction n with
  | zero => rw [Nat.pow_zero, Nat.mod_one]; rfl
  | succ n ih =>
    have hlow : decimalNumber n (bcdNat k (n + 1)) = decimalNumber n (bcdNat k n) :=
      decimalNumber_congr fun j hj => by rw [bcdNat_digit k (Nat.lt_succ_of_lt hj), bcdNat_digit k hj]
    rw [decimalNumber_succ, hlow, ih, bcdNat_digit k (Nat.lt_succ_self n), Nat.pow_succ, Nat.mod_mul,
      Nat.mul_comm (_ / _ % _)]

theorem Width.pow_digits (w : Width) : 16 ^ Width.digits w = 2 ^ w.bits := by cases w <;> rfl

theorem bcdOf_toNat (w : Width) (k : Nat) : (bcdOf (Width.digits w) k).toNat = bcdNat k (Width.digits w) := by
  have hlt := bcdNat_lt k (Width.digits w)
  rw [Width.pow_digits] at hlt
  have hword : 2 ^ w.bits ≤ 2 ^ 32 := by cases w <;> decide
  exact (BitVec.toNat_ofNat ..).trans (Nat.mod_eq_of_lt (Nat.lt_of_lt_of_le hlt hword))

theorem bothDecimal_iff (w : Width) (a m : Word) :
    bothDecimal w a m = true ↔ allDecimal (w.bits / 4) a.toNat ∧ allDecimal (w.bits / 4) m.toNat := by
  rw [bothDecimal, Bool.and_eq_true, bcdValid_iff, bcdValid_iff, Width.digits]

/-! ## Decimal sums and differences -/

/-- The decimal sum is that of the numbers, cut to the digits of the width (R192). -/
theorem addDecimal_spec (w : Width) (a m : Word) (c : Bool) :
    ∃ k, addDecimal w a m c = (bcdOf (Width.digits w) k,
        decide (10 ^ (w.bits / 4) ≤
          decimalNumber (w.bits / 4) a.toNat + decimalNumber (w.bits / 4) m.toNat + c.toNat)) ∧
      k % 10 ^ (w.bits / 4) =
        (decimalNumber (w.bits / 4) a.toNat + decimalNumber (w.bits / 4) m.toNat + c.toNat) % 10 ^ (w.bits / 4) := by
  rw [addDecimal, decValue_eq, decValue_eq]
  exact ⟨_, rfl, Nat.mod_mod ..⟩

/-- The decimal difference is that of the numbers, one ten-power up when a borrow is taken (R196). -/
theorem subDecimal_spec {w : Width} {a m : Word} (ha : allDecimal (w.bits / 4) a.toNat)
    (hm : allDecimal (w.bits / 4) m.toNat) (c : Bool) :
    ∃ k, subDecimal w a m c = (bcdOf (Width.digits w) k,
        decide (decimalNumber (w.bits / 4) m.toNat + (!c).toNat ≤ decimalNumber (w.bits / 4) a.toNat)) ∧
      k % 10 ^ (w.bits / 4) = (10 ^ (w.bits / 4) + decimalNumber (w.bits / 4) a.toNat -
        decimalNumber (w.bits / 4) m.toNat - (!c).toNat) % 10 ^ (w.bits / 4) := by
  have hx := decimalNumber_lt ha
  have hy := decimalNumber_lt hm
  have hc := Bool.toNat_le (!c)
  rw [subDecimal, decValue_eq, decValue_eq, Width.digits]
  generalize decimalNumber (w.bits / 4) a.toNat = x at *
  generalize decimalNumber (w.bits / 4) m.toNat = y at *
  generalize 10 ^ (w.bits / 4) = ten at *
  split
  next hborrow => exact ⟨_, by rw [decide_eq_false (by omega)], by congr 1; omega⟩
  next hkeep =>
    refine ⟨_, by rw [decide_eq_true (by omega)], ?_⟩
    rw [← Nat.add_mod_right]
    congr 1
    omega

/-- A decimal result: the accumulator takes a packed decimal number, N and Z are of it, and C its carry (R193). -/
theorem aluDecimal_result (o : Operand) {s : State} {k r : Nat} (hk : k % 10 ^ (s.mw.bits / 4) = r) (c binV : Bool) :
    let t := s.afterAlu o (aluDecimal s s.mw (bcdOf (Width.digits s.mw) k, c) binV)
    writesLow s.mw s.a t.amNat t.a ∧ allDecimal (s.mw.bits / 4) t.amNat ∧
      decimalNumber (s.mw.bits / 4) t.amNat = r ∧
      t.p = { s.p.withNZ s.mw t.amNat with c := c, v := t.p.v } ∧
      (s.cfg.decimalV = .binary → t.p.v = binV) ∧
      pcMoves s t o.len ∧ unchangedBut [.a, .p, .pc, .free] s t := by
  intro t
  have hlt := bcdNat_lt k (Width.digits s.mw)
  rw [Width.pow_digits] at hlt
  have ham : t.amNat = bcdNat k (s.mw.bits / 4) := by
    have hread : t.amNat = (bcdOf (Width.digits s.mw) k).toNat % 2 ^ s.mw.bits := s.afterAlu_amNat o _
    rw [hread, bcdOf_toNat, Nat.mod_eq_of_lt hlt, Width.digits]
  have hp := s.afterAlu_p o (aluDecimal s s.mw (bcdOf (Width.digits s.mw) k, c) binV)
  refine ⟨s.afterAlu_writesAmNat o _, ?_, ?_, ?_, fun hcfg => ?_, s.afterAlu_pcMoves o _,
    (s.afterAlu_frame o _).mono (by decide)⟩
  · rw [ham]
    exact bcdNat_allDecimal k _
  · rw [ham]
    exact (decimalNumber_bcdNat k _).trans hk
  · have hnz : s.p.withNZ s.mw t.amNat = s.p.nz s.mw (bcdOf (Width.digits s.mw) k) := by
      rw [Status.nz_eq, bcdOf_toNat, ham, Width.digits]
    rw [hnz, hp]
    rfl
  · rw [hp]
    simp [aluDecimal, hcfg]

/-- Settles O24: a decimal result of the ALU, of the decimal sum or difference. -/
theorem decimalAddSubtract : Obligations.DecimalAddSubtract := by
  intro o i s hd w n m ha hm
  rw [← State.am_toNat] at ha
  have hboth : bothDecimal s.mw s.am (o.value s.mw s) = true := (bothDecimal_iff ..).2 ⟨ha, hm⟩
  constructor
  · intro h
    obtain ⟨k, hadd, hk⟩ := addDecimal_spec s.mw s.am (o.value s.mw s) s.p.c
    rw [State.am_toNat] at hadd hk
    refine ⟨_, exec_of_adcForm h s, ?_⟩
    rw [State.adcResult, if_pos hd, if_pos hboth, hadd, State.add_overflow]
    exact aluDecimal_result o hk _ _
  · intro h
    obtain ⟨k, hsub, hk⟩ := subDecimal_spec ha hm s.p.c
    rw [State.am_toNat] at hsub hk
    refine ⟨_, exec_of_sbcForm h s, ?_⟩
    rw [State.sbcResult, if_pos hd, if_pos hboth, hsub, State.sub_overflow]
    exact aluDecimal_result o hk _ _

/-- A free result: only the accumulator and the four flags are written, and free values are taken (log 4). -/
theorem aluFree_result (o : Operand) (s : State) :
    let t := s.afterAlu o (aluFree s s.mw)
    writesLow s.mw s.a t.amNat t.a ∧ t.p = { s.p with n := t.p.n, v := t.p.v, z := t.p.z, c := t.p.c } ∧
      s.freeIdx < t.freeIdx ∧ pcMoves s t o.len ∧ unchangedBut [.a, .p, .pc, .free] s t := by
  refine ⟨s.afterAlu_writesAmNat o _, ?_, ?_, s.afterAlu_pcMoves o _, (s.afterAlu_frame o _).mono (by decide)⟩
  · rw [State.afterAlu_p]
  · rw [State.afterAlu_freeIdx]
    exact Nat.lt_add_of_pos_right (show 0 < 5 by decide)

/-- Settles O25: both operations then answer the free result. -/
theorem decimalOperandWithLargeDigit : Obligations.DecimalOperandWithLargeDigit := by
  intro o i s hd hlarge hform
  rw [← State.am_toNat, ← bothDecimal_iff] at hlarge
  have hresult : s.adcResult (o.value s.mw s) = aluFree s s.mw ∧ s.sbcResult (o.value s.mw s) = aluFree s s.mw := by
    rw [State.adcResult, State.sbcResult, if_pos hd, if_neg hlarge, if_pos hd, if_neg hlarge]
    exact ⟨rfl, rfl⟩
  obtain ⟨hadc, hsbc⟩ := hresult
  obtain h | h := hform
  · exact ⟨_, hadc ▸ exec_of_adcForm h s, aluFree_result o s⟩
  · exact ⟨_, hsbc ▸ exec_of_sbcForm h s, aluFree_result o s⟩

end Sys2Proof.Machine

/-! # Proofs: logic, comparison and bit test

AND, ORA and EOR (R197 to R199), CMP, CPX and CPY (R201 to R203) and BIT (R200) in every form. Each form is the one
operation of its mnemonic at its operand, so each operation is treated once, for any operand. -/

namespace Sys2Proof.Machine

/-! ## New flags, and PC past the instruction -/

/-- The end of every instruction that writes P and advances: `u` is the state in which some pieces `c` have been
written, and the flags and PC do not depend on which. -/
theorem setP_advance {s u : State} {c : List Piece} (hframe : unchangedBut c s u) (hc : Piece.pc ∉ c) (p : Status)
    (len : Nat) :
    ((u.setP p).advance len).p = p ∧ pcMoves s ((u.setP p).advance len) len ∧
      unchangedBut (c ++ [.p] ++ [.pc]) s ((u.setP p).advance len) :=
  ⟨rfl, advance_pcMoves_of_pc (t := u.setP p) (hframe .pc hc) len,
    (hframe.trans (setP_frame p u)).trans (advance_frame len _)⟩

/-! ## Logic -/

theorem exec_of_andForm {o : Operand} {i : Instr} (h : andForm o = some i) (s : State) :
    exec i s = logicOp (· &&& ·) o s := by
  cases o with
  | imm _ => cases h; rfl
  | mem m => cases m <;> cases h <;> rfl

theorem exec_of_oraForm {o : Operand} {i : Instr} (h : oraForm o = some i) (s : State) :
    exec i s = logicOp (· ||| ·) o s := by
  cases o with
  | imm _ => cases h; rfl
  | mem m => cases m <;> cases h <;> rfl

theorem exec_of_eorForm {o : Operand} {i : Instr} (h : eorForm o = some i) (s : State) :
    exec i s = logicOp (· ^^^ ·) o s := by
  cases o with
  | imm _ => cases h; rfl
  | mem m => cases m <;> cases h <;> rfl

/-- The result of a logic operation, whatever the operation is: the statement sees it modulo the width. -/
theorem logicOp_result (f : Word → Word → Word) (o : Operand) {s : State} {r : Nat}
    (hr : (f s.am (o.value s.mw s)).toNat = r) :
    ∃ t, logicOp f o s = .next t ∧ writesLow s.mw s.a r t.a ∧ t.p = s.p.withNZ s.mw r ∧ pcMoves s t o.len ∧
      unchangedBut [.a, .p, .pc] s t := by
  have hmod : (s.mw.trunc (f s.am (o.value s.mw s))).toNat % 2 ^ s.mw.bits = r % 2 ^ s.mw.bits := by
    rw [Width.trunc_toNat, Nat.mod_mod, hr]
  have hwrite := State.writeA_spec s.mw (s.mw.trunc (f s.am (o.value s.mw s))) (o.note s.mw s)
  rw [Operand.note_a] at hwrite
  refine ⟨_, rfl, hwrite.congr hmod, ?_⟩
  rw [← Status.withNZ_congr s.mw hmod]
  exact setNZ_advance ((note_frame s.mw o s).trans (writeA_frame _ _ _)) (by decide) _ _ _

/-- Settles O26: the three operations on words are those on numbers. -/
theorem logicResult : Obligations.LogicResult := by
  rintro o i s r (⟨h, rfl⟩ | ⟨h, rfl⟩ | ⟨h, rfl⟩)
  · rw [exec_of_andForm h s]
    exact logicOp_result _ o (by rw [BitVec.toNat_and, State.am_toNat])
  · rw [exec_of_oraForm h s]
    exact logicOp_result _ o (by rw [BitVec.toNat_or, State.am_toNat])
  · rw [exec_of_eorForm h s]
    exact logicOp_result _ o (by rw [BitVec.toNat_xor, State.am_toNat])

/-! ## Comparison -/

theorem exec_of_cmpForm {o : Operand} {i : Instr} (h : cmpForm o = some i) (s : State) :
    exec i s = compareOp s.mw s.am o s := by
  cases o with
  | imm _ => cases h; rfl
  | mem m => cases m <;> cases h <;> rfl

theorem exec_of_cpxForm {o : Operand} {i : Instr} (h : cpxForm o = some i) (s : State) :
    exec i s = compareOp s.xw s.ix o s := by
  cases o with
  | imm _ => cases h; rfl
  | mem m => cases m <;> cases h <;> rfl

theorem exec_of_cpyForm {o : Operand} {i : Instr} (h : cpyForm o = some i) (s : State) :
    exec i s = compareOp s.xw s.iy o s := by
  cases o with
  | imm _ => cases h; rfl
  | mem m => cases m <;> cases h <;> rfl

/-- The flags of a comparison are those of the difference with no borrow to begin with (R201). -/
theorem Status.compare_eq {w : Width} {reg m : Word} (hreg : reg.toNat < 2 ^ w.bits) (hm : m.toNat < 2 ^ w.bits)
    (p : Status) :
    p.compare w reg m =
      { p.withNZ w (2 ^ w.bits + reg.toNat - m.toNat) with c := decide (m.toNat ≤ reg.toNat) } := by
  have hcout := addBinary_not_cout hreg hm true
  have hr : (addBinary w reg (w.not m) true).r.toNat % 2 ^ w.bits =
      (2 ^ w.bits + reg.toNat - m.toNat) % 2 ^ w.bits := by
    rw [addBinary_r, Nat.mod_mod, addSum_not hreg hm]
    rfl
  rw [Status.compare, hcout, Status.nz_eq, Status.withNZ_congr w hr]
  rfl

theorem compareOp_result {w : Width} {reg : Word} (hreg : reg.toNat < 2 ^ w.bits) (o : Operand) (s : State) :
    ∃ t, compareOp w reg o s = .next t ∧
      t.p = { s.p.withNZ w (2 ^ w.bits + reg.toNat - (o.value w s).toNat) with
        c := decide ((o.value w s).toNat ≤ reg.toNat) } ∧
      pcMoves s t o.len ∧ unchangedBut [.p, .pc] s t := by
  rw [← Status.compare_eq hreg (o.value_lt w s)]
  exact ⟨_, rfl, setP_advance (note_frame w o s) (by decide) _ _⟩

/-- Settles O27: the three instructions differ in the register and its width. -/
theorem compareResult : Obligations.CompareResult := by
  rintro o i s w reg (⟨h, rfl, rfl⟩ | ⟨h, rfl, rfl⟩ | ⟨h, rfl, rfl⟩)
  · rw [exec_of_cmpForm h s, ← State.am_toNat]
    exact compareOp_result s.am_lt o s
  · rw [exec_of_cpxForm h s, ← State.ix_toNat]
    exact compareOp_result (Width.trunc_lt s.xw s.x) o s
  · rw [exec_of_cpyForm h s, ← State.iy_toNat]
    exact compareOp_result (Width.trunc_lt s.xw s.y) o s

/-! ## Bit test -/

theorem exec_of_bitForm {m : Mode} {i : Instr} (h : bitForm m = some i) (s : State) : exec i s = bitMem m s := by
  cases m <;> cases h <;> rfl

/-- Settles O28: on memory the top two bits of the operand are copied; an immediate gives only Z. -/
theorem bitTestResult : Obligations.BitTestResult := by
  constructor
  · intro m i s h v
    rw [exec_of_bitForm h s, ← isZero_am]
    exact ⟨_, rfl, setP_advance (noteData_frame m s.mw.bytes s) (by decide) _ _⟩
  · intro v s
    rw [← isZero_am]
    exact ⟨_, rfl, setP_advance (.refl s) (by decide) _ _⟩

end Sys2Proof.Machine

/-! # Proofs: shifts, counts, test-and-set

ASL, LSR, ROL, ROR, INC and DEC (R204 to R210), TSB and TRB (R215, R216), and INX, INY, DEX and DEY (R211 to R214). What
an operation does to a value and the flags is said once as numbers; the accumulator, memory and the index registers are
then places it is applied to. -/

namespace Sys2Proof.Machine

/-! ## What each operation does to a value and the flags -/

/-- The operation of the model that a shift or count is. -/
def ShiftOp.wordOp : ShiftOp → Width → Word → Status → Word × Status
  | .asl => aslOp
  | .lsr => lsrOp
  | .rol => rolOp
  | .ror => rorOp
  | .inc => incOp
  | .dec => decOp

/-- Half of a number of the width has a clear top bit: N after LSR (R206). -/
theorem testBit_half {w : Width} {n : Nat} (h : n < 2 ^ w.bits) : (n / 2).testBit (w.bits - 1) = false := by
  apply Nat.testBit_lt_two_pow
  cases w <;> simp only [Width.bits] at h ⊢ <;> omega

/-- A number cut to a word and then to the width is cut to the width. -/
theorem Width.mod_word (w : Width) (n : Nat) : n % 2 ^ 32 % 2 ^ w.bits = n % 2 ^ w.bits :=
  Nat.mod_mod_of_dvd n (Nat.pow_dvd_pow 2 (by cases w <;> decide))

theorem shiftLeft_one_toNat (m : Word) : (m <<< 1).toNat = 2 * m.toNat % 2 ^ 32 := by
  rw [BitVec.toNat_shiftLeft, Nat.shiftLeft_eq, Nat.mul_comm, Nat.pow_one]

theorem trunc_shiftRight_one_toNat {w : Width} {m : Word} (h : m.toNat < 2 ^ w.bits) :
    (w.trunc m >>> 1).toNat = m.toNat / 2 := by
  rw [BitVec.toNat_ushiftRight, Nat.shiftRight_eq_div_pow, Width.trunc_toNat, Nat.mod_eq_of_lt h, Nat.pow_one]

/-- A bit put into the place that a shift to the left has freed (R207). -/
theorem shiftLeft_or_bit_toNat (m : Word) (c : Bool) :
    (m <<< 1 ||| (if c then 1 else 0)).toNat = (2 * m.toNat + c.toNat) % 2 ^ 32 := by
  have hbit : (if c then (1 : Word) else 0).toNat = c.toNat := by cases c <;> rfl
  have hdouble : 2 * m.toNat % 2 ^ 32 = m.toNat % 2 ^ 31 * 2 ^ 1 := by omega
  have hc := Bool.toNat_le c
  rw [BitVec.toNat_or, hbit, shiftLeft_one_toNat, hdouble, or_mul_eq _ _ _ (by omega)]
  omega

/-- A bit put into the place that a shift to the right has freed (R208). -/
theorem shiftRight_or_bit_toNat {w : Width} {m : Word} (h : m.toNat < 2 ^ w.bits) (c : Bool) :
    (w.trunc m >>> 1 ||| (if c then (1 : Word) <<< (w.bits - 1) else 0)).toNat =
      m.toNat / 2 + c.toNat * 2 ^ (w.bits - 1) := by
  have hbit : (if c then (1 : Word) <<< (w.bits - 1) else 0).toNat = c.toNat * 2 ^ (w.bits - 1) := by
    cases c <;> cases w <;> rfl
  have hhalf : m.toNat / 2 < 2 ^ (w.bits - 1) := by cases w <;> simp only [Width.bits] at h ⊢ <;> omega
  rw [BitVec.toNat_or, hbit, trunc_shiftRight_one_toNat h, Nat.or_comm, or_mul_eq _ _ _ hhalf, Nat.add_comm]

/-- The new value of a shift or count, as a number (R205 to R210). -/
theorem ShiftOp.wordOp_toNat (op : ShiftOp) {w : Width} {m : Word} (h : m.toNat < 2 ^ w.bits) (p : Status) :
    (op.wordOp w m p).1.toNat = op.result w m.toNat p.c := by
  cases op with
  | asl =>
    show (w.trunc (m <<< 1)).toNat = _
    rw [Width.trunc_toNat, shiftLeft_one_toNat, Width.mod_word]
    rfl
  | lsr => exact trunc_shiftRight_one_toNat h
  | rol =>
    show (w.trunc (m <<< 1 ||| _)).toNat = _
    rw [Width.trunc_toNat, shiftLeft_or_bit_toNat, Width.mod_word]
    rfl
  | ror => exact shiftRight_or_bit_toNat h p.c
  | inc =>
    show (w.trunc (m + 1)).toNat = _
    rw [Width.trunc_toNat, BitVec.toNat_add, Width.mod_word]
    rfl
  | dec =>
    have hsub : (m - 1).toNat = (m.toNat + 2 ^ 32 - 1) % 2 ^ 32 := by
      have one : (1 : Word).toNat = 1 := rfl
      rw [BitVec.toNat_sub, one]
      omega
    show (w.trunc (m - 1)).toNat = (m.toNat + 2 ^ w.bits - 1) % 2 ^ w.bits
    rw [Width.trunc_toNat, hsub, Width.mod_word]
    cases w <;> simp only [Width.bits] <;> omega

/-- The new flags of a shift or count: N and Z of the new value, and the carry (R205 to R210). -/
theorem ShiftOp.wordOp_status (op : ShiftOp) {w : Width} {m : Word} (h : m.toNat < 2 ^ w.bits) (p : Status) :
    (op.wordOp w m p).2 = { p.withNZ w (op.result w m.toNat p.c) with c := op.carry w m.toNat p.c } := by
  rw [← op.wordOp_toNat h p]
  cases op with
  | asl => exact congrArg (fun q : Status => { q with c := w.msb m }) (Status.nz_eq w (aslOp w m p).1 p)
  | lsr =>
    have hn : (w.trunc m >>> 1).toNat.testBit (w.bits - 1) = false := by
      rw [trunc_shiftRight_one_toNat h, testBit_half h]
    have hnz : p.withNZ w (w.trunc m >>> 1).toNat = { p with n := false, z := isZero w (w.trunc m >>> 1) } := by
      rw [Status.withNZ, hn, isZero_eq]
    exact congrArg (fun q : Status => { q with c := m.getLsbD 0 }) hnz.symm
  | rol => exact congrArg (fun q : Status => { q with c := w.msb m }) (Status.nz_eq w (rolOp w m p).1 p)
  | ror => exact congrArg (fun q : Status => { q with c := m.getLsbD 0 }) (Status.nz_eq w (rorOp w m p).1 p)
  | inc => exact Status.nz_eq w (incOp w m p).1 p
  | dec => exact Status.nz_eq w (decOp w m p).1 p

/-! ## On the accumulator -/

theorem exec_acc (op : ShiftOp) (s : State) : exec op.acc s = rmwAcc op.wordOp s := by cases op <;> rfl

/-- Settles O29: a write of the accumulator at its width, and the flags of the operation. -/
theorem shiftAccumulatorResult : Obligations.ShiftAccumulatorResult := by
  intro op s
  rw [exec_acc, ← State.am_toNat, ← op.wordOp_status s.am_lt, ← op.wordOp_toNat s.am_lt]
  exact ⟨_, rfl, State.writeA_spec s.mw _ s, setP_advance (writeA_frame _ _ s) (by decide) _ _⟩

/-! ## On memory -/

theorem exec_of_onMem {op : ShiftOp} {m : Mode} {i : Instr} (h : op.onMem m = some i) (s : State) :
    exec i s = rmwMem op.wordOp m s := by
  cases op with
  | asl | lsr | rol | ror | inc | dec => cases m <;> cases h <;> rfl

theorem memWriteBack_frame (ea : EA) (n : Nat) (v : Word) (s : State) : unchangedBut [.mem] s (s.memWriteBack ea n v) :=
  writeBytes_frame ea v _ s

/-- A read-modify-write instruction stores the new value at the address the old one was read from: reading leaves
memory and registers as they were (R204). -/
theorem rmwMem_result (f : Width → Word → Status → Word × Status) (m : Mode) (s : State) :
    let q := f s.mw ((Operand.mem m).value s.mw s) s.p
    ∃ t, rmwMem f m s = .next t ∧ storedAt s t (m.ea s) s.mw.bytes q.1 ∧ t.p = q.2 ∧ pcMoves s t m.len ∧
      unchangedBut [.mem, .p, .pc] s t := by
  intro q
  have hread := noteData_frame m s.mw.bytes s
  have hstored := (m.noteData s.mw.bytes s).memWriteBack_storedAt (m.ea s) s.mw.bytes_le q.1
  exact ⟨_, rfl, (hstored.of_frame hread).congr rfl,
    setP_advance (hread.trans (memWriteBack_frame (m.ea s) s.mw.bytes q.1 _)) (by decide) _ _⟩

/-- Settles O30: the operation is applied to the bytes at the address of the mode. -/
theorem shiftMemoryResult : Obligations.ShiftMemoryResult := by
  intro op m i s h v
  have hlt := (Operand.mem m).value_lt s.mw s
  rw [exec_of_onMem h s, ← op.wordOp_status hlt, ← op.wordOp_toNat hlt, BitVec.ofNat_toNat, BitVec.setWidth_eq]
  exact rmwMem_result op.wordOp m s

/-! ## Test-and-set -/

theorem exec_of_tsbForm {m : Mode} {i : Instr} (h : tsbForm m = some i) (s : State) :
    exec i s = rmwMem (tsbOp s.am) m s := by cases m <;> cases h <;> rfl

theorem exec_of_trbForm {m : Mode} {i : Instr} (h : trbForm m = some i) (s : State) :
    exec i s = rmwMem (trbOp s.am) m s := by cases m <;> cases h <;> rfl

theorem Width.trunc_getLsbD (w : Width) (v : Word) (i : Nat) :
    (w.trunc v).getLsbD i = (decide (i < w.bits) && v.getLsbD i) := by
  rw [BitVec.getLsbD, Width.trunc_toNat, Nat.testBit_mod_two_pow, BitVec.getLsbD]

/-- At the width, the bits of A that TSB sets are those of the whole register (R215). -/
theorem Width.trunc_or_trunc (w : Width) (v a : Word) : w.trunc (v ||| w.trunc a) = w.trunc (v ||| a) := by
  apply BitVec.eq_of_getLsbD_eq
  intro i _
  simp only [Width.trunc_getLsbD, BitVec.getLsbD_or]
  cases decide (i < w.bits) <;> rfl

/-- At the width, the bits of A that TRB clears are those of the whole register (R216). -/
theorem Width.trunc_and_not_trunc (w : Width) (v a : Word) : w.trunc (v &&& ~~~w.trunc a) = w.trunc (v &&& ~~~a) := by
  apply BitVec.eq_of_getLsbD_eq
  intro i _
  simp only [Width.trunc_getLsbD, BitVec.getLsbD_and, BitVec.getLsbD_not]
  cases decide (i < w.bits) <;> rfl

/-- Settles O31: the bytes stored do not see the bits of A above the width, and Z tests the value read. -/
theorem testAndSetResult : Obligations.TestAndSetResult := by
  rintro m i s r v (⟨h, rfl⟩ | ⟨h, rfl⟩)
  · obtain ⟨t, hexec, hstored, hrest⟩ := rmwMem_result (tsbOp s.am) m s
    have htrunc : (tsbOp s.am s.mw v s.p).1 = s.mw.trunc (v ||| s.a) := Width.trunc_or_trunc s.mw v s.a
    rw [htrunc] at hstored
    rw [exec_of_tsbForm h s, ← isZero_am]
    exact ⟨t, hexec, hstored.of_trunc, hrest⟩
  · obtain ⟨t, hexec, hstored, hrest⟩ := rmwMem_result (trbOp s.am) m s
    have htrunc : (trbOp s.am s.mw v s.p).1 = s.mw.trunc (v &&& ~~~s.a) := Width.trunc_and_not_trunc s.mw v s.a
    rw [htrunc] at hstored
    rw [exec_of_trbForm h s, ← isZero_am]
    exact ⟨t, hexec, hstored.of_trunc, hrest⟩

/-! ## On the index registers -/

/-- A count of the low bits of a register by `k` is one of the whole register, seen modulo the width. -/
def ShiftOp.CountsBy (op : ShiftOp) (w : Width) (k : Nat) : Prop :=
  (∀ n c, op.result w (n % 2 ^ w.bits) c % 2 ^ w.bits = (n + k) % 2 ^ w.bits) ∧ ∀ n c, op.carry w n c = c

theorem inc_countsBy (w : Width) : ShiftOp.inc.CountsBy w 1 :=
  ⟨fun n _ => by rw [ShiftOp.result, Nat.mod_mod, Nat.mod_add_mod], fun _ _ => rfl⟩

theorem dec_countsBy (w : Width) : ShiftOp.dec.CountsBy w (2 ^ w.bits - 1) :=
  ⟨fun n _ => by rw [ShiftOp.result, Nat.mod_mod, Nat.add_sub_assoc Nat.one_le_two_pow, Nat.mod_add_mod],
    fun _ _ => rfl⟩

/-- What a count does to the low bits of a register and to P: it keeps the carry. -/
theorem ShiftOp.CountsBy.wordOp {op : ShiftOp} {w : Width} {k : Nat} (h : op.CountsBy w k) (v : Word) (p : Status) :
    (op.wordOp w (w.trunc v) p).1.toNat % 2 ^ w.bits = (v.toNat + k) % 2 ^ w.bits ∧
      (op.wordOp w (w.trunc v) p).2 = p.withNZ w (v.toNat + k) := by
  obtain ⟨hresult, hcarry⟩ := h
  have hlt := Width.trunc_lt w v
  rw [op.wordOp_status hlt, op.wordOp_toNat hlt, Width.trunc_toNat, hcarry,
    Status.withNZ_congr w (hresult v.toNat p.c)]
  exact ⟨hresult _ _, rfl⟩

theorem countX_result {op : ShiftOp} {s : State} {k : Nat} (h : op.CountsBy s.xw k) :
    ∃ t, countX op.wordOp s = .next t ∧ writesLow s.xw s.x (s.x.toNat + k) t.x ∧
      t.p = s.p.withNZ s.xw (s.x.toNat + k) ∧ pcMoves s t 1 ∧ unchangedBut [.x, .p, .pc] s t := by
  obtain ⟨hvalue, hstatus⟩ := h.wordOp s.x s.p
  rw [← hstatus]
  exact ⟨_, rfl, (State.writeX_spec s.xw _ s).congr hvalue, setP_advance (writeX_frame _ _ s) (by decide) _ _⟩

theorem countY_result {op : ShiftOp} {s : State} {k : Nat} (h : op.CountsBy s.xw k) :
    ∃ t, countY op.wordOp s = .next t ∧ writesLow s.xw s.y (s.y.toNat + k) t.y ∧
      t.p = s.p.withNZ s.xw (s.y.toNat + k) ∧ pcMoves s t 1 ∧ unchangedBut [.y, .p, .pc] s t := by
  obtain ⟨hvalue, hstatus⟩ := h.wordOp s.y s.p
  rw [← hstatus]
  exact ⟨_, rfl, (State.writeY_spec s.xw _ s).congr hvalue, setP_advance (writeY_frame _ _ s) (by decide) _ _⟩

/-- Settles O32: the four instructions count X or Y, up by one or by all but one of the values of the width. -/
theorem indexCountResult : Obligations.IndexCountResult := by
  refine ⟨fun _ => ⟨rfl, rfl, rfl, rfl⟩, fun i s k => ⟨?_, ?_⟩⟩
  · rintro (⟨rfl, rfl⟩ | ⟨rfl, rfl⟩)
    · exact countX_result (op := .inc) (inc_countsBy s.xw)
    · exact countX_result (op := .dec) (dec_countsBy s.xw)
  · rintro (⟨rfl, rfl⟩ | ⟨rfl, rfl⟩)
    · exact countY_result (op := .inc) (inc_countsBy s.xw)
    · exact countY_result (op := .dec) (dec_countsBy s.xw)

end Sys2Proof.Machine

/-! # Proofs: transfers and the pull of the status register

TAX, TAY, TXA, TYA, TXY, TYX and TSX (R230 to R235, R237, R238), TSC, TDC, TCD and XBA (R239, R240, R242, R243), TCS and
TXS (R236, R241), and PLP (R256, R320). A transfer is treated once for each register it writes, whatever its source. -/

namespace Sys2Proof.Machine

/-! ## Transfers at a width -/

theorem transferA_result (w : Width) (v : Word) (s : State) :
    ∃ t, transferA w v s = .next t ∧ writesLow w s.a v.toNat t.a ∧ t.p = s.p.withNZ w v.toNat ∧ pcMoves s t 1 ∧
      unchangedBut [.a, .p, .pc] s t :=
  ⟨_, rfl, State.writeA_spec w v s, setNZ_advance (writeA_frame w v s) (by decide) w v 1⟩

theorem transferX_result (v : Word) (s : State) :
    ∃ t, transferX v s = .next t ∧ writesLow s.xw s.x v.toNat t.x ∧ t.p = s.p.withNZ s.xw v.toNat ∧ pcMoves s t 1 ∧
      unchangedBut [.x, .p, .pc] s t :=
  ⟨_, rfl, State.writeX_spec s.xw v s, setNZ_advance (writeX_frame s.xw v s) (by decide) s.xw v 1⟩

theorem transferY_result (v : Word) (s : State) :
    ∃ t, transferY v s = .next t ∧ writesLow s.xw s.y v.toNat t.y ∧ t.p = s.p.withNZ s.xw v.toNat ∧ pcMoves s t 1 ∧
      unchangedBut [.y, .p, .pc] s t :=
  ⟨_, rfl, State.writeY_spec s.xw v s, setNZ_advance (writeY_frame s.xw v s) (by decide) s.xw v 1⟩

/-- Settles O33: each instruction is the transfer to its register, at its source; S is a source zero-extended. -/
theorem registerTransferResult : Obligations.RegisterTransferResult := by
  refine ⟨fun _ => ⟨rfl, rfl, rfl, rfl, rfl, rfl, rfl⟩, fun i s v => ⟨?_, ?_, ?_⟩⟩
  · rintro (⟨rfl, rfl⟩ | ⟨rfl, rfl⟩ | ⟨rfl, rfl⟩)
    · exact transferX_result s.a s
    · exact transferX_result s.y s
    · rw [← zextHalf_toNat s.sp]
      exact transferX_result (zextHalf s.sp) s
  · rintro (⟨rfl, rfl⟩ | ⟨rfl, rfl⟩)
    · exact transferY_result s.a s
    · exact transferY_result s.x s
  · rintro (⟨rfl, rfl⟩ | ⟨rfl, rfl⟩)
    · exact transferA_result s.mw s.x s
    · exact transferA_result s.mw s.y s

/-! ## Transfers of 16 bits -/

theorem tcd_result (s : State) :
    ∃ t, exec .tcd s = .next t ∧ t.dr.toNat = s.a.toNat % 65536 ∧ t.p = s.p.withNZ .w16 s.a.toNat ∧ pcMoves s t 1 ∧
      unchangedBut [.dr, .p, .pc] s t :=
  ⟨_, rfl, lowHalf_toNat s.a, setNZ_advance (setDr_frame (lowHalf s.a) s) (by decide) .w16 s.a 1⟩

/-- The two low bytes of A exchanged, zero-extended: what XBA writes to A[15:0] (R243). -/
def swappedBytes (a : Word) : Word := zextHalf (joinBytes (byteOf a 0) (byteOf a 1))

theorem exec_xba (s : State) :
    exec .xba s = .next (((s.writeA .w16 (swappedBytes s.a)).setNZ .w8 (swappedBytes s.a)).advance 1) := rfl

theorem swappedBytes_toNat (a : Word) : (swappedBytes a).toNat = a.toNat % 256 * 256 + a.toNat / 256 % 256 := by
  rw [swappedBytes, zextHalf_toNat, joinBytes_toNat, byteOf_toNat, byteOf_toNat, Nat.pow_zero, Nat.div_one, Nat.pow_one]

/-- The new low byte is the old one above it, so N and Z are those of A shifted down by a byte. -/
theorem withNZ_swappedBytes (a : Word) (p : Status) :
    p.withNZ .w8 (swappedBytes a).toNat = p.withNZ .w8 (a.toNat / 256) := by
  have hlow : (swappedBytes a).toNat % 256 = a.toNat / 256 % 256 := by
    rw [swappedBytes_toNat]
    omega
  exact Status.withNZ_congr .w8 hlow p

theorem xba_result (s : State) :
    ∃ t, exec .xba s = .next t ∧ writesLow .w16 s.a (s.a.toNat % 256 * 256 + s.a.toNat / 256 % 256) t.a ∧
      t.p = s.p.withNZ .w8 (s.a.toNat / 256) ∧ pcMoves s t 1 ∧ unchangedBut [.a, .p, .pc] s t := by
  rw [← swappedBytes_toNat, ← withNZ_swappedBytes]
  exact ⟨_, exec_xba s, State.writeA_spec .w16 _ s, setNZ_advance (writeA_frame .w16 _ s) (by decide) .w8 _ 1⟩

/-- Settles O34: TSC and TDC are transfers to A at 16 bits, whatever the widths in force are. -/
theorem sixteenBitTransferResult : Obligations.SixteenBitTransferResult := by
  intro s
  refine ⟨?_, ?_, tcd_result s, xba_result s⟩
  · rw [← zextHalf_toNat s.sp]
    exact transferA_result .w16 (zextHalf s.sp) s
  · rw [← zextHalf_toNat s.dr]
    exact transferA_result .w16 (zextHalf s.dr) s

/-! ## Transfers to S -/

theorem State.wrapS_lowHalf_toNat (v : Word) (s : State) :
    (s.wrapS (lowHalf v)).toNat = if s.emu8 then 256 + v.toNat % 256 else v.toNat % 65536 := by
  rw [State.wrapS]
  split
  · rw [pageOne_toNat, lowHalf_toNat]
    omega
  · exact lowHalf_toNat v

theorem transferS_result (v : Word) (s : State) :
    ∃ t, transferS (lowHalf v) s = .next t ∧
      t.sp.toNat = (if s.emu8 then 256 + v.toNat % 256 else v.toNat % 65536) ∧ pcMoves s t 1 ∧
      unchangedBut [.sp, .pc] s t :=
  ⟨_, rfl, State.wrapS_lowHalf_toNat v s, advance_pcMoves_of_pc (State.setSp_pc _ s) 1,
    (setSp_frame _ s).trans (advance_frame 1 _)⟩

/-- Settles O35: both are the transfer to S, of A or of X. -/
theorem transferToStackPointerResult : Obligations.TransferToStackPointerResult := by
  refine ⟨fun _ => ⟨rfl, rfl⟩, fun i s v => ?_⟩
  rintro (⟨rfl, rfl⟩ | ⟨rfl, rfl⟩)
  · exact transferS_result s.a s
  · exact transferS_result s.x s

/-! ## A write of P and the normalisation after it -/

theorem writeP_frame (b : Byte) (s : State) : unchangedBut [.p] s (s.writeP b) := setP_frame _ s

/-- A write of P keeps E16, so it never widens the index from 16 to 32 bits (R27). -/
theorem State.writeP_not_widened (b : Byte) (s : State) :
    ¬(s.xw = .w16 ∧ (s.writeP b).e16 = false ∧ (s.writeP b).p.x = false) := by
  rintro ⟨hxw, h16, -⟩
  exact Bool.false_ne_true (h16.symm.trans (s.xw_eq_w16_iff.1 hxw).2)

/-- P after a write of it from a byte: in `emu8` M and Xf end as 1 whatever they were (R35, R320). -/
theorem State.writeP_normalise_p (b : Byte) (old : Width) (s : State) :
    ((s.writeP b).normalise old).p = s.statusPulled b := by
  rw [State.normalise_p_or, State.writeP_emu8, State.writeP, State.setP_p, State.statusPulled]
  cases s.emu8 <;> simp [Status.ofByte, Status.keepWidths]

/-- The index registers follow the new Xf. -/
theorem State.writeP_normalise_indexForced (b : Byte) (s : State) :
    indexForced s ((s.writeP b).normalise s.xw) := State.normalise_indexForced (s.writeP_not_widened b)

theorem State.writeP_normalise_stackForced (b : Byte) (old : Width) (s : State) :
    stackForced s ((s.writeP b).normalise old) := State.normalise_stackForced old (s.writeP b)

/-- No free value is used up: nothing is widened. -/
theorem State.writeP_normalise_frame (b : Byte) (s : State) :
    unchangedBut [.p, .x, .y, .sp] s ((s.writeP b).normalise s.xw) := by
  obtain ⟨-, -, hfree⟩ := State.normalise_index s.xw (s.writeP b) (s.writeP_not_widened b)
  have hall : unchangedBut [.free, .p, .x, .y, .sp] s ((s.writeP b).normalise s.xw) :=
    ((writeP_frame b s).trans (normalise_frame s.xw _)).mono (by decide)
  exact hall.remove hfree

/-! ## The pull of P -/

/-- S that a pull has moved is where the normalisation wants it: in page 1 in `emu8` (R82, R320). -/
theorem spMoves.of_stackForced {s u t : State} {k : Nat} (hmove : spMoves s u k) (hforce : stackForced u t)
    (he : t.emu8 = s.emu8) : spMoves s t k := by
  rw [spMoves] at hmove ⊢
  rw [stackForced, he, hmove] at hforce
  rw [hforce]
  split <;> omega

theorem pull8_spMoves (s : State) : spMoves s (s.pull8 .wrapping).2 1 := State.pullPtr_spMoves Nat.one_pos rfl

@[simp] theorem State.pull8_xw (r : StackRule) (s : State) : (s.pull8 r).2.xw = s.xw := rfl

theorem State.pull8_statusPulled (r : StackRule) (b : Byte) (s : State) :
    (s.pull8 r).2.statusPulled b = s.statusPulled b := rfl

theorem exec_plp (s : State) :
    exec .plp s = .next ((((s.pull8 .wrapping).2.writeP (s.pulledByte .wrapping 1)).normalise s.xw).advance 1) := rfl

/-- Settles O41: a pull of a byte leaves the mode and the widths, so P is written and normalised as from the state
before. -/
theorem pullStatusResult : Obligations.PullStatusResult := by
  intro s
  have hp := (s.pull8 .wrapping).2.writeP_normalise_p (s.pulledByte .wrapping 1) s.xw
  have hindex := (s.pull8 .wrapping).2.writeP_normalise_indexForced (s.pulledByte .wrapping 1)
  have hsp := (pull8_spMoves s).of_stackForced
    ((s.pull8 .wrapping).2.writeP_normalise_stackForced (s.pulledByte .wrapping 1) s.xw) (by simp)
  have hframe := (pull8_frame .wrapping s).trans
    ((s.pull8 .wrapping).2.writeP_normalise_frame (s.pulledByte .wrapping 1))
  rw [State.pull8_statusPulled] at hp
  rw [State.pull8_xw] at hindex hframe
  exact ⟨_, exec_plp s, hp, hindex, hsp.congr rfl, advance_pcMoves_of_pc (hframe .pc (by decide)) 1,
    (hframe.trans (advance_frame 1 _)).mono (by decide)⟩

end Sys2Proof.Machine

/-! # Proofs: branches, jumps and returns

The nine short branches (R281 to R290); BRL and the five jumps (R291 to R296); RTS and RTL (R300, R301), and that each
undoes the push of its call (R280 (e), R297, R299). -/

namespace Sys2Proof.Machine

/-! ## Displacements -/

/-- A signed displacement from the end of an instruction of `n` bytes, inside the bank (R147, R148, R281). -/
theorem displaced_toNat (pc d : Half) (n : Nat) :
    ((pc + BitVec.ofNat 16 n + d).toNat : Int) = (pc.toNat + n + d.toInt) % 65536 := by
  rw [BitVec.toNat_add, BitVec.toNat_add, BitVec.toNat_ofNat, BitVec.toInt_eq_toNat_cond]
  split <;> omega

theorem sextByte_toInt (b : Byte) : (sextByte b).toInt = b.toInt := BitVec.toInt_signExtend_of_le (by decide)

/-! ## Short branches -/

/-- The one meaning that the nine branches share (R281): the displacement of a branch not taken is 0. -/
theorem branch_result (cond : Bool) (off : Byte) (s : State) :
    ∃ t, branch cond off s = .next t ∧ (t.pc.toNat : Int) = (s.pc.toNat + 2 + if cond then off.toInt else 0) % 65536 ∧
      unchangedBut [.pc] s t := by
  refine ⟨_, rfl, ?_, setPc_frame _ s⟩
  rw [State.setPc_pc]
  cases cond with
  | true => rw [← sextByte_toInt]; exact displaced_toNat s.pc (sextByte off) 2
  | false => simp

/-- Settles O43: the nine branches differ in their opcode and their condition. -/
theorem shortBranchResult : Obligations.ShortBranchResult := by
  intro off c s i op cond h
  simp only [List.mem_cons, Prod.mk.injEq, List.not_mem_nil, or_false] at h
  obtain ⟨rfl, rfl, rfl⟩ | ⟨rfl, rfl, rfl⟩ | ⟨rfl, rfl, rfl⟩ | ⟨rfl, rfl, rfl⟩ | ⟨rfl, rfl, rfl⟩ | ⟨rfl, rfl, rfl⟩ |
    ⟨rfl, rfl, rfl⟩ | ⟨rfl, rfl, rfl⟩ | ⟨rfl, rfl, rfl⟩ := h
  all_goals exact ⟨rfl, branch_result _ off s⟩

/-! ## The bytes of a little-endian number -/

/-- The number of the first `k` bytes is what is left of the whole modulo `256 ^ k`. -/
theorem littleEndian_mod (f : Nat → Byte) {n k : Nat} (h : k ≤ n) : littleEndian f n % 256 ^ k = littleEndian f k := by
  induction n, h using Nat.le_induction with
  | base => exact Nat.mod_eq_of_lt (littleEndian_lt f k)
  | succ n hkn ih =>
    have hdvd : 256 ^ k ∣ (f n).toNat * 256 ^ n := (Nat.pow_dvd_pow 256 hkn).mul_left _
    rw [littleEndian, Nat.add_mod, Nat.mod_eq_zero_of_dvd hdvd, Nat.add_zero, Nat.mod_mod, ih]

/-- Byte `k` of the number is the byte `f k`. -/
theorem littleEndian_byte (f : Nat → Byte) {n k : Nat} (h : k < n) : littleEndian f n / 256 ^ k % 256 = (f k).toNat := by
  have hsplit : littleEndian f n % 256 ^ (k + 1) = littleEndian f k + (f k).toNat * 256 ^ k := littleEndian_mod f h
  rw [← Nat.mod_mul_right_div_self, ← Nat.pow_succ, hsplit, Nat.add_mul_div_right _ _ (Nat.pow_pos (by decide)),
    Nat.div_eq_of_lt (littleEndian_lt f k), Nat.zero_add]

/-- The low half of a word made of `n` bytes, of which there are at least two. -/
theorem lowHalf_of_littleEndian {v : Word} {f : Nat → Byte} {n : Nat} (h : v.toNat = littleEndian f n) (hn : 2 ≤ n) :
    (lowHalf v).toNat = littleEndian f 2 := by
  rw [lowHalf_toNat, h]
  exact littleEndian_mod f hn

theorem byteOf_of_littleEndian {v : Word} {f : Nat → Byte} {n k : Nat} (h : v.toNat = littleEndian f n) (hk : k < n) :
    byteOf v k = f k := by
  apply BitVec.eq_of_toNat_eq
  rw [byteOf_toNat, h, littleEndian_byte f hk]

/-! ## Jumps -/

/-- The pointer of `(a)` is in bank 0 and wraps at `$FFFF` (R76, R149). -/
theorem State.physByte_bank0Pointer (s : State) (addr : Half) (k : Nat) :
    s.physByte (bank0Pointer addr) k = (addr.toNat + k) % 65536 := by
  have haddr := addr.isLt
  rw [bank0Pointer, State.physByte_bank0, zextHalf_toNat, Nat.mod_eq_of_lt haddr]

/-- The bytes read at the pointer of `(a)`, as one number (R149). -/
theorem State.memRead_bank0Pointer_toNat (s : State) (addr : Half) {n : Nat} (hn : n ≤ 4) :
    (s.memRead (bank0Pointer addr) n).toNat =
      littleEndian (fun k => Mem.read s.mem ((addr.toNat + k) % 65536)) n := by
  rw [State.memRead_toNat s _ hn]
  refine littleEndian_congr fun k _ => ?_
  rw [State.read8_byteAddr, State.physByte_bank0Pointer]

theorem brl_result (off : Half) (s : State) :
    ∃ t, exec (.brl off) s = .next t ∧ (t.pc.toNat : Int) = (s.pc.toNat + 3 + off.toInt) % 65536 ∧
      unchangedBut [.pc] s t :=
  ⟨_, rfl, displaced_toNat s.pc off 3, setPc_frame _ s⟩

theorem jmpLong_result (long : BitVec 24) (s : State) :
    ∃ t, exec (.jmpLong long) s = .next t ∧ t.pc.toNat = long.toNat % 65536 ∧ t.pbr.toNat = long.toNat / 65536 ∧
      unchangedBut [.pc, .pbr] s t :=
  ⟨_, rfl, longOff_toNat long, longBank_toNat long, (setPc_frame _ s).trans (setPbr_frame _ _)⟩

theorem jmpAbsInd_result (addr : Half) (s : State) :
    ∃ t, exec (.jmpAbsInd addr) s = .next t ∧
      t.pc.toNat = littleEndian (fun k => Mem.read s.mem ((addr.toNat + k) % 65536)) 2 ∧ unchangedBut [.pc] s t :=
  ⟨_, rfl, lowHalf_of_littleEndian (s.memRead_bank0Pointer_toNat addr (by decide)) le_rfl,
    (noteReads_frame _ _ _ s).trans (setPc_frame _ _)⟩

theorem jmpAbsXInd_result (addr : Half) (s : State) :
    ∃ t, exec (.jmpAbsXInd addr) s = .next t ∧
      t.pc.toNat = littleEndian
        (fun k => Mem.read s.mem (s.pbr.toNat * 65536 + (addr.toNat + s.ix.toNat + k) % 65536)) 2 ∧
      unchangedBut [.pc] s t :=
  ⟨_, rfl, s.progPointer_target addr, (noteReads_frame _ _ _ s).trans (setPc_frame _ _)⟩

theorem jml_result (addr : Half) (s : State) :
    ∃ t, exec (.jml addr) s = .next t ∧
      t.pc.toNat = littleEndian (fun k => Mem.read s.mem ((addr.toNat + k) % 65536)) 2 ∧
      t.pbr = Mem.read s.mem ((addr.toNat + 2) % 65536) ∧ unchangedBut [.pc, .pbr] s t := by
  have hpointer := s.memRead_bank0Pointer_toNat addr (n := 3) (by decide)
  exact ⟨_, rfl, lowHalf_of_littleEndian hpointer (by decide), byteOf_of_littleEndian hpointer (by decide),
    ((noteReads_frame _ _ _ s).trans (setPc_frame _ _)).trans (setPbr_frame _ _)⟩

/-- Settles O44: one jump at a time; the two that read a pointer in bank 0 differ in its length. -/
theorem jumpResult : Obligations.JumpResult := fun addr long _ s =>
  ⟨⟨rfl, brl_result addr s⟩, ⟨rfl, _, rfl, rfl, setPc_frame addr s⟩, ⟨rfl, jmpLong_result long s⟩,
    ⟨rfl, jmpAbsInd_result addr s⟩, ⟨rfl, jmpAbsXInd_result addr s⟩, ⟨rfl, jml_result addr s⟩⟩

/-! ## Returns -/

/-- The byte pulled as number `k` of a value is that byte of the value (R82). -/
theorem State.byteOf_pullN (s : State) (r : StackRule) {n k : Nat} (hn : n ≤ 4) (hk : k < n) :
    byteOf (s.pullN r n).1 k = s.pulledByte r (k + 1) :=
  byteOf_of_littleEndian (s.pullN_toNat r n hn) hk

/-- The target of a return: one above the pulled address, inside the bank (R300, R301). -/
theorem State.returnTarget_toNat (s : State) (r : StackRule) {n : Nat} (h2 : 2 ≤ n) (hn : n ≤ 4) :
    (lowHalf (s.pullN r n).1 + 1).toNat = (s.pulled r 2 + 1) % 65536 := by
  rw [half_add_one_toNat, lowHalf_of_littleEndian (s.pullN_toNat r n hn) h2, State.pulled]

theorem rts_result (s : State) :
    ∃ t, exec .rts s = .next t ∧ t.pc.toNat = (s.pulled .wrapping 2 + 1) % 65536 ∧ t.sp = s.pullPtr .wrapping 2 ∧
      unchangedBut [.pc, .sp] s t :=
  ⟨_, rfl, s.returnTarget_toNat .wrapping le_rfl (by decide), s.pullN_sp .wrapping 2,
    ((pullN_frame _ _ s).trans (setPc_frame _ _)).mono (by decide)⟩

/-- RTL where it has pulled PC and PBR, and S is still where the pulls have left it (R301). -/
def State.rtlPulled (s : State) : State :=
  ((s.pullN .plain 3).2.setPc (lowHalf (s.pullN .plain 3).1 + 1)).setPbr (byteOf (s.pullN .plain 3).1 2)

theorem exec_rtl (s : State) : exec .rtl s = .next s.rtlPulled.forceSH := rfl

theorem State.rtlPulled_frame (s : State) : unchangedBut [.pc, .pbr, .sp] s s.rtlPulled :=
  (((pullN_frame _ _ s).trans (setPc_frame _ _)).trans (setPbr_frame _ _)).mono (by decide)

theorem State.rtlPulled_pc (s : State) : s.rtlPulled.pc.toNat = (s.pulled .plain 2 + 1) % 65536 :=
  s.returnTarget_toNat .plain (by decide) (by decide)

theorem State.rtlPulled_pbr (s : State) : s.rtlPulled.pbr = s.pulledByte .plain 3 :=
  s.byteOf_pullN .plain (by decide) (by decide)

theorem State.rtlPulled_sp (s : State) : s.rtlPulled.sp = s.pullPtr .plain 3 := s.pullN_sp .plain 3

theorem State.rtlPulled_emu8 (s : State) : s.rtlPulled.emu8 = s.emu8 := by
  obtain ⟨h8, h16⟩ : s.rtlPulled.e8 = s.e8 ∧ s.rtlPulled.e16 = s.e16 := s.rtlPulled_frame .modes (by decide)
  exact State.emu8_congr h16 h8

/-- Settles O46: RTS pulls by the wrapping rule; RTL by the plain one, and then restores SH. -/
theorem subroutineReturnResult : Obligations.SubroutineReturnResult := by
  refine ⟨fun _ => ⟨rfl, rfl⟩, fun s => ⟨?_, _, exec_rtl s, s.rtlPulled_pc, s.rtlPulled_pbr, ?_, ?_⟩⟩
  · obtain ⟨t, hexec, hpc, hsp, hframe⟩ := rts_result s
    exact ⟨t, hexec, hpc, State.pullPtr_spMoves (by decide) hsp, hframe⟩
  · exact forceSH_spMoves s.rtlPulled_emu8 (by rw [State.rtlPulled_sp, State.pullPtr_plain_toNat])
  · exact (s.rtlPulled_frame.trans (forceSH_frame _)).mono (by decide)

/-! ## A return right after its call -/

/-- The first `m` bytes pulled after the push of a value are its low bytes (R81, R82). -/
theorem Pushed.pulled {s t : State} {r : StackRule} {v : Word} {n m : Nat} (h : Pushed s t r (bytesDown v n))
    (hs : s.StackOk) (hn : n < 256) (hm : m ≤ n) : t.pulled r m = v.toNat % 256 ^ m := by
  rw [State.pulled, littleEndian_congr fun k hk => h.pulledByte hs hn (Nat.lt_of_lt_of_le hk hm), littleEndian_byteOf]

/-- After as many pulls as there were pushes, S is as before them (R80, R82). -/
theorem Pushed.pullPtr_all {s t : State} {r : StackRule} {v : Word} {n : Nat} (h : Pushed s t r (bytesDown v n))
    (hs : s.StackOk) (hn : n < 256) : t.pullPtr r n = s.sp := by
  have hlen := bytesDown_length v n
  rw [h.pullPtr hs (by omega) (by omega), hlen, Nat.sub_self, State.pushPtr]

theorem byteOf_bankAddr_two (b : Byte) (h : Half) : byteOf (bankAddr b h) 2 = b := by
  have hb := b.isLt
  have hh := h.isLt
  apply BitVec.eq_of_toNat_eq
  rw [byteOf_toNat, bankAddr_toNat]
  omega

/-- The bank and the address that JSL pushes are the bytes of one 24-bit value (R299). -/
theorem bytesDown_bankAddr (b : Byte) (h : Half) : bytesDown (bankAddr b h) 3 = [b, halfHi h, halfLo h] := by
  have hh := h.isLt
  have hhigh : byteOf (bankAddr b h) 1 = halfHi h := by
    apply BitVec.eq_of_toNat_eq
    rw [byteOf_toNat, bankAddr_toNat, halfHi_toNat]
    omega
  have hlow : byteOf (bankAddr b h) 0 = halfLo h := by
    apply BitVec.eq_of_toNat_eq
    rw [byteOf_toNat, bankAddr_toNat, halfLo_toNat]
    omega
  have hbytes : bytesDown (bankAddr b h) 3 =
      [byteOf (bankAddr b h) 2, byteOf (bankAddr b h) 1, byteOf (bankAddr b h) 0] := rfl
  rw [hbytes, byteOf_bankAddr_two, hhigh, hlow]

/-- A return from the address `ret` comes back to the byte behind it (R300, R301). -/
theorem eq_add_one_of_toNat {pc ret : Half} {n : Nat} (h : pc.toNat = (n + 1) % 65536) (hn : n = ret.toNat) :
    pc = ret + 1 := by
  apply BitVec.eq_of_toNat_eq
  rw [h, hn, half_add_one_toNat]

/-- RTS where JSR `a` has pushed `ret` (R297, R300). -/
theorem rts_after_push {s t : State} {ret : Half} (hs : s.StackOk)
    (h : Pushed s t .wrapping (bytesDown (zextHalf ret) 2)) (hframe : unchangedBut [.mem, .sp, .pc] s t) :
    ∃ u, exec .rts t = .next u ∧ u.pc = ret + 1 ∧ unchangedBut [.mem, .pc] s u := by
  have hret : t.pulled .wrapping 2 = ret.toNat := by
    have hlt := ret.isLt
    rw [h.pulled hs (by decide) le_rfl, zextHalf_toNat]
    exact Nat.mod_eq_of_lt hlt
  obtain ⟨u, hexec, hpc, hsp, hreturn⟩ := rts_result t
  have hback : u.sp = s.sp := hsp.trans (h.pullPtr_all hs (by decide))
  have hall : unchangedBut [.sp, .mem, .pc] s u := (hframe.trans hreturn).mono (by decide)
  exact ⟨u, hexec, eq_add_one_of_toNat hpc hret, hall.remove hback⟩

theorem State.forceSH_of_not_emu8 {s : State} (h : s.emu8 = false) : s.forceSH = s := by
  rw [State.forceSH, State.wrapS, h]
  rfl

/-- RTL outside `emu8` where JSL has pushed the bank and `ret` (R299, R301). -/
theorem rtl_after_push {s t : State} {ret : Half} (hs : s.StackOk) (he : s.emu8 = false)
    (h : Pushed s t .plain (bytesDown (bankAddr s.pbr ret) 3)) (hframe : unchangedBut [.mem, .sp, .pc, .pbr] s t) :
    ∃ u, exec .rtl t = .next u ∧ u.pc = ret + 1 ∧ unchangedBut [.mem, .pc] s u := by
  have hret : t.pulled .plain 2 = ret.toNat := by
    have hlt := ret.isLt
    rw [h.pulled hs (by decide) (by decide), bankAddr_toNat]
    omega
  have hbank : t.rtlPulled.pbr = s.pbr := by
    rw [State.rtlPulled_pbr, h.pulledByte hs (by decide) (by decide), byteOf_bankAddr_two]
  have hback : t.rtlPulled.sp = s.sp := t.rtlPulled_sp.trans (h.pullPtr_all hs (by decide))
  have hall : unchangedBut [.sp, .pbr, .mem, .pc] s t.rtlPulled := (hframe.trans t.rtlPulled_frame).mono (by decide)
  refine ⟨t.rtlPulled, ?_, eq_add_one_of_toNat t.rtlPulled_pc hret, (hall.remove hback).remove hbank⟩
  rw [exec_rtl, State.forceSH_of_not_emu8 (t.rtlPulled_emu8.trans (h.emu8.trans he))]

/-- What JSR `a` leaves for RTS (R297). -/
theorem jsrAbs_pushed (addr : Half) (s : State) :
    Ensures (exec (.jsrAbs addr) s) fun t =>
      Pushed s t .wrapping (bytesDown (zextHalf (s.pc + 2)) 2) ∧ unchangedBut [.mem, .sp, .pc] s t := by
  refine ensures_next.2 ⟨?_, ?_⟩
  · exact (State.pushN_spec .wrapping (zextHalf (s.pc + 2)) 2 (by decide) s).setPc addr
  · exact (pushN_frame _ _ _ s).trans (setPc_frame addr _)

/-- PBR is nothing to the stack. -/
theorem Pushed.setPbr {s t : State} {r : StackRule} {bs : List Byte} (h : Pushed s t r bs) (b : Byte) :
    Pushed s (t.setPbr b) r bs := ⟨h.bytes, h.ptr, h.e16, h.e8, h.cfg⟩

/-- Outside `emu8` an instruction whose pushes do not wrap has no SH to restore (R83). -/
theorem Pushed.forceSH {s t : State} {r : StackRule} {bs : List Byte} (h : Pushed s t r bs) (he : s.emu8 = false) :
    Pushed s t.forceSH r bs := by
  rwa [State.forceSH_of_not_emu8 (h.emu8.trans he)]

/-- What JSL leaves for RTL outside `emu8`, whatever bank it has fetched behind its first push (R299). -/
theorem jsl_pushed (long : BitVec 24) {s : State} (he : s.emu8 = false) :
    Ensures (exec (.jsl long) s) fun t =>
      Pushed s t .plain (bytesDown (bankAddr s.pbr (s.pc + 3)) 3) ∧ unchangedBut [.mem, .sp, .pc, .pbr] s t := by
  have hbank : Pushed s ((s.push8 .plain s.pbr).noteFetch 3) .plain [s.pbr] :=
    ((Pushed.refl s .plain).push8 (by decide) s.pbr).setBus _
  have hpushed := hbank.pushN (zextHalf (s.pc + 3)) 2 (by simp)
  rw [bytesDown_half] at hpushed
  rw [bytesDown_bankAddr]
  refine ensures_next.2 ⟨((hpushed.setPc _).setPbr _).forceSH he, ?_⟩
  exact ((((((push8_frame .plain s.pbr s).trans (noteFetch_frame 3 _)).trans (pushN_frame _ _ _ _)).trans
    (setPc_frame _ _)).trans (setPbr_frame _ _)).trans (forceSH_frame _)).mono (by decide)

/-- Settles O47: each call leaves its return address on the stack, and its return pulls it again. -/
theorem callThenReturn : Obligations.CallThenReturn := by
  intro s hinv
  refine ⟨fun addr t h => ?_, fun he long t h => ?_⟩
  · obtain ⟨hpushed, hframe⟩ := jsrAbs_pushed addr s t h
    obtain ⟨u, hexec, hpc, hkept⟩ := rts_after_push hinv.stackOk hpushed hframe
    exact ⟨u, hexec, hpc.trans (BitVec.add_assoc s.pc 2 1), hkept⟩
  · obtain ⟨hpushed, hframe⟩ := jsl_pushed long he t h
    obtain ⟨u, hexec, hpc, hkept⟩ := rtl_after_push hinv.stackOk he hpushed hframe
    exact ⟨u, hexec, hpc.trans (BitVec.add_assoc s.pc 3 1), hkept⟩

end Sys2Proof.Machine

/-! # Proofs: flag instructions and status masks

CLC, SEC, CLD, SED, CLI, SEI and CLV (R310 to R317), each a write of one flag; REP and SEP (R318, R319), each a write of
P from a byte made of P and a mask, followed by the normalisation (R320). -/

namespace Sys2Proof.Machine

/-! ## One flag -/

/-- The one meaning that the seven flag instructions share (R310). -/
theorem flagOp_result (p : Status) (s : State) :
    ∃ t, flagOp p s = .next t ∧ t.p = p ∧ pcMoves s t 1 ∧ unchangedBut [.p, .pc] s t :=
  ⟨_, rfl, setP_advance (unchangedBut.refl s) (by decide) p 1⟩

/-- Settles O48: the seven instructions differ in their opcode and the flag they write. -/
theorem flagInstructionResult : Obligations.FlagInstructionResult := by
  intro c s i op p h
  simp only [List.mem_cons, Prod.mk.injEq, List.not_mem_nil, or_false] at h
  obtain ⟨rfl, rfl, rfl⟩ | ⟨rfl, rfl, rfl⟩ | ⟨rfl, rfl, rfl⟩ | ⟨rfl, rfl, rfl⟩ | ⟨rfl, rfl, rfl⟩ | ⟨rfl, rfl, rfl⟩ |
    ⟨rfl, rfl, rfl⟩ := h
  all_goals exact ⟨rfl, flagOp_result _ s⟩

/-! ## The bits of the status byte -/

theorem bitAt_getLsbD (k j : Nat) (b : Bool) : (bitAt k b).getLsbD j = (decide (j < 8) && (decide (k = j) && b)) := by
  cases b with
  | false => simp [bitAt]
  | true => rw [bitAt, if_pos rfl, BitVec.getLsbD_ofNat, Nat.testBit_two_pow, Bool.and_true]

/-- The byte that P is packed into gives P back (R13). -/
theorem Status.ofByte_toByte (p : Status) : Status.ofByte p.toByte = p := by
  simp only [Status.ofByte, Status.toByte, BitVec.getLsbD_or, bitAt_getLsbD]
  simp

/-- P with the function `f` of bit position and old value applied to each flag, but for M and Xf in `emu8`, where they are
1 (R35, R318, R319). -/
def Status.mapBits (f : Nat → Bool → Bool) (emu8 : Bool) (p : Status) : Status where
  n := f 7 p.n
  v := f 6 p.v
  m := emu8 || f 5 p.m
  x := emu8 || f 4 p.x
  d := f 3 p.d
  i := f 2 p.i
  z := f 1 p.z
  c := f 0 p.c

/-- A byte that is the status byte with `f` applied to each bit stands for P with `f` applied to each flag. -/
theorem State.statusPulled_of_bits {f : Nat → Bool → Bool} {b : Byte} {s : State}
    (h : ∀ k < 8, b.getLsbD k = f k (s.p.toByte.getLsbD k)) : s.statusPulled b = s.p.mapBits f s.emu8 := by
  have hpacked : s.statusPulled b = (Status.ofByte s.p.toByte).mapBits f s.emu8 := by
    rw [State.statusPulled, h 7 (by decide), h 6 (by decide), h 5 (by decide), h 4 (by decide), h 3 (by decide),
      h 2 (by decide), h 1 (by decide), h 0 (by decide)]
    rfl
  rw [hpacked, Status.ofByte_toByte]

/-! ## REP and SEP -/

/-- The one meaning that REP and SEP share: `b`, the byte written to P, is the status byte with `f` applied to each bit
(R318 to R320). -/
theorem maskOp_result {f : Nat → Bool → Bool} {b : Byte} {s : State}
    (h : ∀ k < 8, b.getLsbD k = f k (s.p.toByte.getLsbD k)) :
    ∃ t, maskOp b s = .next t ∧ t.p = s.p.mapBits f s.emu8 ∧ indexForced s t ∧ stackForced s t ∧ pcMoves s t 2 ∧
      unchangedBut [.p, .x, .y, .sp, .pc] s t := by
  have hp := (s.writeP_normalise_p b s.xw).trans (State.statusPulled_of_bits h)
  have hframe := s.writeP_normalise_frame b
  exact ⟨_, rfl, hp, s.writeP_normalise_indexForced b, s.writeP_normalise_stackForced b s.xw,
    advance_pcMoves_of_pc (hframe .pc (by decide)) 2, hframe.trans (advance_frame 2 _)⟩

/-- The byte REP writes to P: a bit is cleared where the mask is 1 (R318). -/
theorem and_not_getLsbD (p k : Byte) {j : Nat} (hj : j < 8) :
    (p &&& ~~~k).getLsbD j = (p.getLsbD j && !k.getLsbD j) := by
  simp [hj]

/-- Settles O49: REP and SEP differ only in the byte they write to P; bit by bit it is the mask's effect on P. -/
theorem statusMaskResult : Obligations.StatusMaskResult := by
  rintro k s i f (⟨rfl, hf⟩ | ⟨rfl, hf⟩)
  · have hbits : ∀ j < 8, (s.p.toByte &&& ~~~k).getLsbD j = f j (s.p.toByte.getLsbD j) := fun j hj => by
      rw [hf, and_not_getLsbD _ _ hj]
    exact maskOp_result hbits
  · have hbits : ∀ j < 8, (s.p.toByte ||| k).getLsbD j = f j (s.p.toByte.getLsbD j) := fun j _ => by
      rw [hf, BitVec.getLsbD_or]
    exact maskOp_result hbits

end Sys2Proof.Machine

/-! # Proofs: block moves

One step of MVN or MVP (R331 to R338). The two differ only in the word added to X and Y, so the step is proved once, for
any word. -/

namespace Sys2Proof.Machine

/-! ## The two addresses -/

/-- The first byte of a linear access is at the effective address itself, which outside native mode has 24 bits
(R73, R76). -/
theorem State.physByte_lin_zero {s : State} {a : Word} (h : s.native = false → a.toNat < 2 ^ 24) :
    s.physByte ⟨a, .lin⟩ 0 = a.toNat % 2 ^ s.cfg.addrBits.bits := by
  have haddr : (s.byteAddr ⟨a, .lin⟩ 0).toNat = a.toNat := by
    rw [State.byteAddr_lin_toNat]
    split
    next => exact Nat.mod_eq_of_lt a.isLt
    next hn => exact Nat.mod_eq_of_lt (h (by simpa using hn))
  rw [State.physByte, State.phys, haddr]

/-- Outside native mode an index has at most 16 bits (R34). -/
theorem State.trunc_xw_lt {s : State} (h : s.native = false) (v : Word) : (s.xw.trunc v).toNat < 2 ^ 24 := by
  have h16 : s.e16 = true := by simpa [State.native] using h
  have hbits : s.xw.bits ≤ 24 := by
    rw [State.xw, idxWidth, h16]
    cases s.p.x <;> decide
  exact (Width.trunc_lt s.xw v).trans_le (Nat.pow_le_pow_right (by decide) hbits)

/-- In native mode a move addresses memory with the whole index (R335). -/
theorem State.physByte_index (s : State) (v : Word) :
    s.physByte ⟨s.xw.trunc v, .lin⟩ 0 = (s.xw.trunc v).toNat % 2 ^ s.cfg.addrBits.bits :=
  State.physByte_lin_zero fun h => State.trunc_xw_lt h v

/-- Outside native mode a move addresses memory with a bank and the low 16 bits of the index (R333). -/
theorem State.physByte_banked (s : State) (bank : Byte) (v : Word) :
    s.physByte ⟨bankAddr bank (lowHalf v), .lin⟩ 0 =
      (bank.toNat * 65536 + v.toNat % 65536) % 2 ^ s.cfg.addrBits.bits := by
  have haddr : (bankAddr bank (lowHalf v)).toNat = bank.toNat * 65536 + v.toNat % 65536 := by
    rw [bankAddr_toNat, lowHalf_toNat]
  have hlt := bank.isLt
  rw [State.physByte_lin_zero fun _ => by omega, haddr]

/-! ## The byte, the indices and the count -/

/-- A one-byte read has the byte at the address (R77). -/
theorem State.byteOf_memRead_one (s : State) (ea : EA) :
    byteOf (s.memRead ea 1) 0 = Mem.read s.mem (s.physByte ea 0) := by
  apply BitVec.eq_of_toNat_eq
  have hlt := (Mem.read s.mem (s.physByte ea 0)).isLt
  rw [byteOf_toNat, s.memRead_toNat ea (by decide)]
  simp only [littleEndian, State.read8_byteAddr]
  omega

/-- A sum with an index, at the width of the index, is one with the whole register (R26, R333). -/
theorem Width.trunc_add_mod {w : Width} {d : Word} {k : Nat} (h : d.toNat % 2 ^ w.bits = k % 2 ^ w.bits) (v : Word) :
    (w.trunc v + d).toNat % 2 ^ w.bits = (v.toNat + k) % 2 ^ w.bits := by
  rw [BitVec.toNat_add, Width.mod_word, Width.trunc_toNat, Nat.mod_add_mod, Nat.add_mod, h, ← Nat.add_mod]

/-- The word that MVP adds counts down by one at every width (R334). -/
theorem Width.neg_one_mod (w : Width) : (-1 : Word).toNat % 2 ^ w.bits = (2 ^ w.bits - 1) % 2 ^ w.bits := by
  cases w <;> decide

theorem lowHalf_eq_zero_iff (v : Word) : lowHalf v = 0 ↔ v.toNat % 65536 = 0 := by
  rw [← BitVec.toNat_inj, lowHalf_toNat]
  rfl

/-- The count goes down by one; at 0 it becomes what `MV_FINAL_C` says (R338). -/
theorem moveCount_toNat (f : MvFinalC) (c : Half) :
    (moveCount f c).toNat = (if c.toNat = 0 ∧ f = .zero then 0 else c.toNat + 65535) % 65536 := by
  cases f with
  | ffff =>
    rw [if_neg (by simp)]
    exact half_sub_one_toNat c
  | zero =>
    have hzero : c = 0 ↔ c.toNat = 0 := BitVec.toNat_inj.symm
    simp only [moveCount, hzero, and_true]
    split
    · rfl
    · exact half_sub_one_toNat c

/-! ## One step -/

/-- The state in which the byte has been moved, and DBR written (R331, R332). -/
def moveCopied (b : BlockBanks) (s : State) : State :=
  ((moveBank b s).noteReads .dataRead (moveSource b s) 1).memWrite (moveDest b s) 1 (s.memRead (moveSource b s) 1)

/-- `moveCopied` with X and Y moved by `d` and the count gone down (R333, R334, R338). -/
def moveCounted (d : Word) (b : BlockBanks) (s : State) : State :=
  (((moveCopied b s).writeX s.xw (s.ix + d)).writeY s.xw (s.iy + d)).writeA .w16
    (zextHalf (moveCount s.cfg.mvFinalC (lowHalf s.a)))

theorem State.advance_zero (s : State) : s.advance 0 = s := congrArg s.setPc (BitVec.add_zero s.pc)

/-- The step ends in one state: PC advances by 0 where it stays at the opcode, and by the length with the byte whose
count is 0 (R332). -/
theorem moveStep_eq (d : Word) (b : BlockBanks) (s : State) :
    moveStep d b s = .next ((moveCounted d b s).advance (if s.a.toNat % 65536 = 0 then moveLen b else 0)) := by
  simp only [← lowHalf_eq_zero_iff]
  show Host.Outcome.next (if lowHalf s.a = 0 then (moveCounted d b s).advance (moveLen b) else moveCounted d b s) = _
  split
  · rfl
  · rw [State.advance_zero]

theorem moveBank_frame (b : BlockBanks) (s : State) : unchangedBut [.dbr] s (moveBank b s) := by
  obtain ⟨v, hv⟩ := moveBank_eq_setDbr b s
  rw [hv]
  exact setDbr_frame v s

theorem moveCopied_frame (b : BlockBanks) (s : State) : unchangedBut [.dbr, .mem] s (moveCopied b s) :=
  ((moveBank_frame b s).trans (noteReads_frame _ _ _ _)).trans (memWrite_frame _ _ _ _)

theorem moveCounted_frame (d : Word) (b : BlockBanks) (s : State) :
    unchangedBut [.dbr, .mem, .x, .y, .a] s (moveCounted d b s) :=
  (((moveCopied_frame b s).trans (writeX_frame _ _ _)).trans (writeY_frame _ _ _)).trans (writeA_frame _ _ _)

/-- The byte at the source stands at the destination: the write of DBR before it changes neither address. -/
theorem moveCopied_storedAt (b : BlockBanks) (s : State) :
    storedAt s (moveCopied b s) (moveDest b s) 1 (s.memRead (moveSource b s) 1) := by
  obtain ⟨v, hv⟩ := moveBank_eq_setDbr b s
  rw [moveCopied, hv]
  exact ((s.setDbr v).noteReads .dataRead (moveSource b s) 1).memWrite_storedAt (moveDest b s) (by decide) _

/-- Memory after the byte has been moved, as bytes (R332). -/
theorem moveCopied_read (b : BlockBanks) (s : State) :
    Mem.read (moveCopied b s).mem (s.physByte (moveDest b s) 0) = Mem.read s.mem (s.physByte (moveSource b s) 0) ∧
      ∀ a, a ≠ s.physByte (moveDest b s) 0 → Mem.read (moveCopied b s).mem a = Mem.read s.mem a := by
  obtain ⟨hbyte, hrest⟩ := moveCopied_storedAt b s
  refine ⟨(hbyte 0 Nat.one_pos).trans (s.byteOf_memRead_one _), fun a ha => hrest a fun k hk => ?_⟩
  rwa [Nat.lt_one_iff.1 hk]

theorem moveCounted_x {d : Word} {s : State} {k : Nat} (h : d.toNat % 2 ^ s.xw.bits = k % 2 ^ s.xw.bits)
    (b : BlockBanks) : writesLow s.xw s.x (s.x.toNat + k) (moveCounted d b s).x := by
  have hwrite := (moveCopied b s).writeX_spec s.xw (s.ix + d)
  have hx : (moveCopied b s).x = s.x := moveCopied_frame b s .x (by decide)
  rw [hx] at hwrite
  exact hwrite.congr (Width.trunc_add_mod h s.x)

theorem moveCounted_y {d : Word} {s : State} {k : Nat} (h : d.toNat % 2 ^ s.xw.bits = k % 2 ^ s.xw.bits)
    (b : BlockBanks) : writesLow s.xw s.y (s.y.toNat + k) (moveCounted d b s).y := by
  have hwrite := (moveCopied b s).writeY_spec s.xw (s.iy + d)
  have hy : (moveCopied b s).y = s.y := moveCopied_frame b s .y (by decide)
  rw [hy] at hwrite
  exact hwrite.congr (Width.trunc_add_mod h s.y)

theorem moveCounted_a (d : Word) (b : BlockBanks) (s : State) :
    writesLow .w16 s.a
      (if s.a.toNat % 65536 = 0 ∧ s.cfg.mvFinalC = .zero then 0 else s.a.toNat % 65536 + 65535)
      (moveCounted d b s).a := by
  have hwrite := (moveCopied b s).writeA_spec .w16 (zextHalf (moveCount s.cfg.mvFinalC (lowHalf s.a)))
  have ha : (moveCopied b s).a = s.a := moveCopied_frame b s .a (by decide)
  rw [ha, zextHalf_toNat, moveCount_toNat, lowHalf_toNat] at hwrite
  exact hwrite.congr (Nat.mod_mod _ _)

theorem moveCounted_dbr (d : Word) (b : BlockBanks) (s : State) : (moveCounted d b s).dbr = (moveBank b s).dbr :=
  State.memWrite_dbr ..

/-- The one step of both moves; `k` is the word `d` as a number, at the index width (R331 to R338). -/
theorem moveStep_result {d : Word} {s : State} {k : Nat} (h : d.toNat % 2 ^ s.xw.bits = k % 2 ^ s.xw.bits)
    (b : BlockBanks) :
    ∃ t, moveStep d b s = .next t ∧
      Mem.read t.mem (s.physByte (moveDest b s) 0) = Mem.read s.mem (s.physByte (moveSource b s) 0) ∧
      (∀ a, a ≠ s.physByte (moveDest b s) 0 → Mem.read t.mem a = Mem.read s.mem a) ∧
      writesLow s.xw s.x (s.x.toNat + k) t.x ∧ writesLow s.xw s.y (s.y.toNat + k) t.y ∧
      writesLow .w16 s.a
        (if s.a.toNat % 65536 = 0 ∧ s.cfg.mvFinalC = .zero then 0 else s.a.toNat % 65536 + 65535) t.a ∧
      t.dbr = (moveBank b s).dbr ∧ pcMoves s t (if s.a.toNat % 65536 = 0 then moveLen b else 0) ∧
      unchangedBut [.mem, .x, .y, .a, .dbr, .pc] s t := by
  obtain ⟨hbyte, hrest⟩ := moveCopied_read b s
  have hframe := moveCounted_frame d b s
  exact ⟨_, moveStep_eq d b s, hbyte, hrest, moveCounted_x h b, moveCounted_y h b, moveCounted_a d b s,
    moveCounted_dbr d b s, advance_pcMoves_of_pc (hframe .pc (by decide)) _,
    (hframe.trans (advance_frame _ _)).mono (by decide)⟩

/-- MVN and MVP are the one step, with 1 and -1 (R333, R334). -/
theorem exec_blockMove {b : BlockBanks} {s : State} {i : Instr} {k : Nat}
    (h : (i = .mvn b ∧ k = 1) ∨ (i = .mvp b ∧ k = 2 ^ s.xw.bits - 1)) :
    ∃ d : Word, exec i s = moveStep d b s ∧ d.toNat % 2 ^ s.xw.bits = k % 2 ^ s.xw.bits := by
  obtain ⟨rfl, rfl⟩ | ⟨rfl, rfl⟩ := h
  · exact ⟨1, rfl, rfl⟩
  · exact ⟨-1, rfl, Width.neg_one_mod s.xw⟩

/-- Settles O51: the step of both moves, with its two addresses written out for each form of the instruction. -/
theorem blockMoveStepResult : Obligations.BlockMoveStepResult := by
  intro b s i k h
  obtain ⟨d, hexec, hd⟩ := exec_blockMove h
  have hstep := moveStep_result hd b
  rw [hexec]
  cases b with
  | native =>
    have hsrc : s.physByte (moveSource .native s) 0 = _ := s.physByte_index s.x
    have hdst : s.physByte (moveDest .native s) 0 = _ := s.physByte_index s.y
    rwa [hsrc, hdst] at hstep
  | banks dst src =>
    have hsrc : s.physByte (moveSource (.banks dst src) s) 0 = _ := s.physByte_banked src s.ix
    have hdst : s.physByte (moveDest (.banks dst src) s) 0 = _ := s.physByte_banked dst s.iy
    rwa [hsrc, hdst] at hstep

end Sys2Proof.Machine

/-! # Proofs: interrupts and the system instructions

The entry into a handler (R368, R370) and with it BRK and COP (R340, R341); RTI (R342, R385), and that it undoes an
entry; WAI, STP, NOP and WDM (R343 to R346). -/

namespace Sys2Proof.Machine

/-! ## Vectors -/

/-- Where the vector of a source stands in `emu8` (R368). -/
def IntSource.vecEmu8 : IntSource → Nat
  | .irq => 0xFFFE
  | .brk => 0xFFFE
  | .nmi => 0xFFFA
  | .abort => 0xFFF8
  | .cop => 0xFFF4

/-- Where the vector of a source stands in `emu16` (R368). -/
def IntSource.vecEmu16 : IntSource → Nat
  | .irq => 0xFFEE
  | .brk => 0xFFE6
  | .nmi => 0xFFEA
  | .abort => 0xFFE8
  | .cop => 0xFFE4

/-- Where the vector of a source stands in native mode (R368). -/
def IntSource.vecNative : IntSource → Nat
  | .irq => 0xFFDE
  | .brk => 0xFFD6
  | .nmi => 0xFFDA
  | .abort => 0xFFD8
  | .cop => 0xFFD4

/-- The table of R368, over the three modes of R3. -/
theorem State.vector_toNat (s : State) (src : IntSource) :
    (s.vector src).toNat = if s.emu8 then src.vecEmu8 else if s.emu16 then src.vecEmu16 else src.vecNative := by
  unfold State.vector State.emu8 State.emu16 State.native
  cases s.e16 <;> cases s.e8 <;> cases src <;> rfl

/-- No vector is the last byte of bank 0, so its second byte is the one above it. -/
theorem State.vector_lt (s : State) (src : IntSource) : (s.vector src).toNat < 65535 := by
  rw [State.vector_toNat]
  split_ifs <;> cases src <;> decide

/-- PC read from a vector: two bytes of bank 0, low byte first (R370 step 6, R375, R410). -/
theorem State.enterVector_pc_toNat (s : State) {v : Half} (hv : v.toNat < 65535) :
    (s.enterVector v).pc.toNat = (Mem.read s.mem v.toNat).toNat + 256 * (Mem.read s.mem (v.toNat + 1)).toNat := by
  have hpc : (s.enterVector v).pc = lowHalf (s.memRead (vectorEA v) 2) := rfl
  rw [hpc, State.lowHalf_memRead_toNat, littleEndian_two, vectorEA, State.physByte_bank0, State.physByte_bank0,
    zextHalf_toNat, Nat.add_zero, Nat.mod_mod, Nat.mod_eq_of_lt (by omega), Nat.mod_eq_of_lt (by omega), Nat.mul_comm]

/-! ## The entry into a handler -/

/-- The bytes that the entry pushes, first byte first: PBR outside `emu8`, the return address, the status byte (R370 steps
1 to 3). -/
def State.frameBytes (s : State) (ret : Half) (brk : Bool) : List Byte :=
  (if s.emu8 then [] else [s.pbr]) ++ [halfHi ret, halfLo ret, s.statusByte brk]

theorem State.frameBytes_length (s : State) (ret : Half) (brk : Bool) :
    (s.frameBytes ret brk).length = if s.emu8 then 3 else 4 := by
  rw [State.frameBytes]
  split <;> rfl

theorem State.pushFrame_pushed (s : State) (ret : Half) (brk : Bool) :
    Pushed s (s.pushFrame ret brk) .wrapping (s.frameBytes ret brk) := by
  have hbank : Pushed s (if s.emu8 then s else s.push8 .wrapping s.pbr) .wrapping (if s.emu8 then [] else [s.pbr]) := by
    split
    · exact .refl s .wrapping
    · exact (Pushed.refl s .wrapping).push8 (by decide) s.pbr
  have hlen : (if s.emu8 then [] else [s.pbr]).length ≤ 1 := by split <;> simp
  have haddr := hbank.pushN (zextHalf ret) 2 (by omega)
  rw [bytesDown_half] at haddr
  have hall := haddr.push8 (by simp only [List.length_append, List.length_cons, List.length_nil]; omega) (s.pushedP brk)
  rw [List.append_assoc] at hall
  rw [State.frameBytes, State.statusByte_eq_pushedP, State.pushFrame]
  exact hall

theorem State.interrupt_mem (src : IntSource) (ret : Half) (brk : Bool) (s : State) :
    (s.interrupt src ret brk).mem = (s.pushFrame ret brk).mem := by
  unfold State.interrupt
  split <;> rfl

theorem State.interrupt_sp (src : IntSource) (ret : Half) (brk : Bool) (s : State) :
    (s.interrupt src ret brk).sp = (s.pushFrame ret brk).sp := by
  unfold State.interrupt
  split <;> rfl

theorem State.interrupt_p (src : IntSource) (ret : Half) (brk : Bool) (s : State) :
    (s.interrupt src ret brk).p = { s.p with d := false, i := true } := by
  unfold State.interrupt
  split <;> simp

theorem State.interrupt_dbr (src : IntSource) (ret : Half) (brk : Bool) (s : State) :
    (s.interrupt src ret brk).dbr = if s.emu8 then 0 else s.dbr := by
  unfold State.interrupt
  split <;> simp

/-- PC is read from the vector after the frame has been pushed (R370 step 6). -/
theorem State.interrupt_pc_toNat (src : IntSource) (ret : Half) (brk : Bool) (s : State) :
    (s.interrupt src ret brk).pc.toNat = (Mem.read (s.interrupt src ret brk).mem (s.vector src).toNat).toNat +
      256 * (Mem.read (s.interrupt src ret brk).mem ((s.vector src).toNat + 1)).toNat :=
  State.enterVector_pc_toNat _ (s.vector_lt src)

theorem State.interrupt_pushed (src : IntSource) (ret : Half) (brk : Bool) (s : State) :
    Pushed s (s.interrupt src ret brk) .wrapping (s.frameBytes ret brk) := by
  have h := s.pushFrame_pushed ret brk
  exact ⟨h.bytes.congr (s.interrupt_mem src ret brk), (s.interrupt_sp src ret brk).trans h.ptr,
    s.interrupt_e16 src ret brk, s.interrupt_e8 src ret brk, s.interrupt_cfg src ret brk⟩

theorem State.interrupt_spMoves (src : IntSource) (ret : Half) (brk : Bool) (s : State) :
    spMoves s (s.interrupt src ret brk) (if s.emu8 then 65533 else 65532) := by
  have h := (s.interrupt_pushed src ret brk).spMoves (s.frameBytes_length ret brk) (by split <;> decide)
    (by split <;> decide)
  have hdown : 65536 - (if s.emu8 then 3 else 4) = if s.emu8 then 65533 else 65532 := by split <;> rfl
  rwa [hdown] at h

theorem interrupt_frame (src : IntSource) (ret : Half) (brk : Bool) (s : State) :
    unchangedBut [.mem, .sp, .p, .pbr, .dbr, .pc, .run] s (s.interrupt src ret brk) := by
  intro q hq
  cases q with
  | mem | sp | p | pbr | dbr | pc | run => simp at hq
  | _ => simp [Piece.same]

/-- Every source enters its handler alike; what differs is the vector (R368, R370). -/
theorem State.interrupt_entersHandler (src : IntSource) (ret : Half) (brk : Bool) (s : State) :
    entersHandler s (s.interrupt src ret brk) ret brk src.vecEmu8 src.vecEmu16 src.vecNative := by
  have hpc := s.interrupt_pc_toNat src ret brk
  rw [State.vector_toNat] at hpc
  exact ⟨(s.interrupt_pushed src ret brk).bytes, s.interrupt_spMoves src ret brk, s.interrupt_p src ret brk,
    s.interrupt_pbr src ret brk, s.interrupt_dbr src ret brk, hpc, rfl⟩

theorem exec_brk (sig : Byte) (s : State) : exec (.brk sig) s = .next (s.interrupt .brk (s.pc + 2) true) := rfl

theorem exec_cop (sig : Byte) (s : State) : exec (.cop sig) s = .next (s.interrupt .cop (s.pc + 2) true) := rfl

/-- Settles O52: both are the one entry, with the address behind the signature and Break set. -/
theorem softwareInterruptResult : Obligations.SoftwareInterruptResult := fun sig s =>
  ⟨⟨_, exec_brk sig s, s.interrupt_entersHandler .brk (s.pc + 2) true, interrupt_frame _ _ _ s⟩,
    ⟨_, exec_cop sig s, s.interrupt_entersHandler .cop (s.pc + 2) true, interrupt_frame _ _ _ s⟩⟩

/-! ## A sequence of pulls -/

/-- `t` is `s` after `n` pulls, as far as the stack can tell: memory is the same, S has moved, and stack addresses are
formed as before. -/
structure Pulled (s t : State) (r : StackRule) (n : Nat) : Prop where
  mem : t.mem = s.mem
  ptr : t.sp = s.pullPtr r n
  e16 : t.e16 = s.e16
  e8 : t.e8 = s.e8

theorem Pulled.refl (s : State) (r : StackRule) : Pulled s s r 0 := ⟨rfl, rfl, rfl, rfl⟩

theorem Pulled.emu8 {s t : State} {r : StackRule} {n : Nat} (h : Pulled s t r n) : t.emu8 = s.emu8 :=
  State.emu8_congr h.e16 h.e8

/-- The `k`-th pull from here on is the pull `n + k` from the start. -/
theorem Pulled.pullPtr {s t : State} {r : StackRule} {n : Nat} (h : Pulled s t r n) (k : Nat) :
    t.pullPtr r k = s.pullPtr r (n + k) := by
  induction k with
  | zero => exact h.ptr
  | succ k ih => rw [State.pullPtr, ih, State.stackPtr_congr h.e16 h.e8, ← Nat.add_assoc, State.pullPtr]

theorem Pulled.pulledByte {s t : State} {r : StackRule} {n : Nat} (h : Pulled s t r n) (k : Nat) :
    t.pulledByte r k = s.pulledByte r (n + k) := by
  rw [State.pulledByte, State.pulledByte, State.stackPhys_eq, State.stackPhys_eq, h.mem, h.pullPtr]

/-- Pulls of `k` bytes more. -/
theorem Pulled.pullN {s t : State} {r : StackRule} {n : Nat} (h : Pulled s t r n) (k : Nat) :
    Pulled s (t.pullN r k).2 r (n + k) :=
  ⟨(State.pullN_mem ..).trans h.mem, (State.pullN_sp ..).trans (h.pullPtr k), (State.pullN_e16 ..).trans h.e16,
    (State.pullN_e8 ..).trans h.e8⟩

/-- One pull more. -/
theorem Pulled.pull8 {s t : State} {r : StackRule} {n : Nat} (h : Pulled s t r n) : Pulled s (t.pull8 r).2 r (n + 1) :=
  ⟨h.mem, h.pullPtr 1, h.e16, h.e8⟩

theorem Pulled.writeP {s t : State} {r : StackRule} {n : Nat} (h : Pulled s t r n) (b : Byte) :
    Pulled s (t.writeP b) r n := ⟨h.mem, h.ptr, h.e16, h.e8⟩

theorem Pulled.setPc {s t : State} {r : StackRule} {n : Nat} (h : Pulled s t r n) (pc : Half) :
    Pulled s (t.setPc pc) r n := ⟨h.mem, h.ptr, h.e16, h.e8⟩

theorem Pulled.setPbr {s t : State} {r : StackRule} {n : Nat} (h : Pulled s t r n) (b : Byte) :
    Pulled s (t.setPbr b) r n := ⟨h.mem, h.ptr, h.e16, h.e8⟩

/-! ## RTI -/

/-- RTI where it has pulled P (R342). -/
def State.rtiStatus (s : State) : State := (s.pull8 .wrapping).2.writeP (s.pull8 .wrapping).1

/-- RTI where it has pulled P and PC (R342). -/
def State.rtiAddress (s : State) : State :=
  (s.rtiStatus.pullN .wrapping 2).2.setPc (lowHalf (s.rtiStatus.pullN .wrapping 2).1)

/-- RTI where it has pulled all of its frame, before the normalisation (R342). -/
def State.rtiPulled (s : State) : State :=
  if s.emu8 then s.rtiAddress else (s.rtiAddress.pull8 .wrapping).2.setPbr (s.rtiAddress.pull8 .wrapping).1

theorem exec_rti (s : State) : exec .rti s = .next (s.rtiPulled.normalise s.xw) := rfl

theorem State.rtiStatus_pulled (s : State) : Pulled s s.rtiStatus .wrapping 1 :=
  (Pulled.refl s .wrapping).pull8.writeP _

theorem State.rtiAddress_pulled (s : State) : Pulled s s.rtiAddress .wrapping 3 :=
  (s.rtiStatus_pulled.pullN 2).setPc _

theorem State.rtiPulled_pulled (s : State) : Pulled s s.rtiPulled .wrapping (if s.emu8 then 3 else 4) := by
  unfold State.rtiPulled
  split
  · exact s.rtiAddress_pulled
  · exact s.rtiAddress_pulled.pull8.setPbr _

theorem State.rtiPulled_p (s : State) : s.rtiPulled.p = s.rtiStatus.p := by
  unfold State.rtiPulled
  split <;> simp [State.rtiAddress]

theorem State.rtiAddress_pc (s : State) :
    s.rtiAddress.pc.toNat = littleEndian (fun k => s.pulledByte .wrapping (k + 2)) 2 := by
  have hpc : s.rtiAddress.pc = lowHalf (s.rtiStatus.pullN .wrapping 2).1 := rfl
  have hvalue : (s.rtiStatus.pullN .wrapping 2).1.toNat = s.rtiStatus.pulled .wrapping 2 :=
    State.pullN_toNat .wrapping 2 (by decide) s.rtiStatus
  rw [hpc, lowHalf_of_littleEndian hvalue le_rfl]
  refine littleEndian_congr fun k _ => ?_
  rw [s.rtiStatus_pulled.pulledByte, Nat.add_comm]

theorem State.rtiPulled_pc (s : State) :
    s.rtiPulled.pc.toNat = littleEndian (fun k => s.pulledByte .wrapping (k + 2)) 2 := by
  rw [← State.rtiAddress_pc]
  unfold State.rtiPulled
  split <;> rfl

theorem State.rtiAddress_frame (s : State) : unchangedBut [.p, .pc, .sp] s s.rtiAddress :=
  ((((pull8_frame .wrapping s).trans (writeP_frame _ _)).trans (pullN_frame .wrapping 2 _)).trans
    (setPc_frame _ _)).mono (by decide)

theorem State.rtiPulled_frame (s : State) : unchangedBut [.p, .pc, .pbr, .sp] s s.rtiPulled := by
  unfold State.rtiPulled
  split
  · exact s.rtiAddress_frame.mono (by decide)
  · exact ((s.rtiAddress_frame.trans (pull8_frame .wrapping _)).trans (setPbr_frame _ _)).mono (by decide)

theorem State.rtiPulled_pbr (s : State) :
    s.rtiPulled.pbr = if s.emu8 then s.pbr else s.pulledByte .wrapping 4 := by
  unfold State.rtiPulled
  split
  · exact s.rtiAddress_frame .pbr (by decide)
  · exact s.rtiAddress_pulled.pulledByte 1

/-- A write of P keeps E16, so RTI never widens the index from 16 to 32 bits (R27). -/
theorem State.rtiPulled_not_widened (s : State) :
    ¬(s.xw = .w16 ∧ s.rtiPulled.e16 = false ∧ s.rtiPulled.p.x = false) := by
  rintro ⟨hxw, h16, -⟩
  rw [s.rtiPulled_pulled.e16] at h16
  exact Bool.false_ne_true (h16.symm.trans (s.xw_eq_w16_iff.1 hxw).2)

/-- P as RTI leaves it is P as PLP would: written from the first byte pulled, and normalised (R256, R342). -/
theorem State.rtiPulled_normalise_p (s : State) :
    (s.rtiPulled.normalise s.xw).p = s.statusPulled (s.pulledByte .wrapping 1) := by
  have hstatus : (s.rtiStatus.normalise s.xw).p = s.statusPulled (s.pulledByte .wrapping 1) :=
    (s.pull8 .wrapping).2.writeP_normalise_p (s.pulledByte .wrapping 1) s.xw
  rw [State.normalise_p, s.rtiStatus_pulled.emu8] at hstatus
  rw [State.normalise_p, s.rtiPulled_pulled.emu8, State.rtiPulled_p, hstatus]

theorem indexForced.of_eq {s u t : State} (h : indexForced u t) (hx : u.x = s.x) (hy : u.y = s.y) :
    indexForced s t := by
  rw [indexForced, hx, hy] at h
  exact h

theorem State.rtiPulled_normalise_frame (s : State) :
    unchangedBut [.p, .pc, .pbr, .x, .y, .sp] s (s.rtiPulled.normalise s.xw) := by
  obtain ⟨-, -, hfree⟩ := State.normalise_index s.xw s.rtiPulled s.rtiPulled_not_widened
  have hall : unchangedBut [.free, .p, .pc, .pbr, .x, .y, .sp] s (s.rtiPulled.normalise s.xw) :=
    (s.rtiPulled_frame.trans (normalise_frame s.xw _)).mono (by decide)
  exact hall.remove (hfree.trans (s.rtiPulled_frame .free (by decide)))

theorem State.rtiPulled_normalise_spMoves (s : State) :
    spMoves s (s.rtiPulled.normalise s.xw) (if s.emu8 then 3 else 4) := by
  have hmove : spMoves s s.rtiPulled (if s.emu8 then 3 else 4) :=
    State.pullPtr_spMoves (by split <;> decide) s.rtiPulled_pulled.ptr
  exact hmove.of_stackForced (State.normalise_stackForced s.xw s.rtiPulled) (by simp [s.rtiPulled_pulled.emu8])

/-- Settles O53: the pulls one after the other, and the normalisation at the end. -/
theorem returnFromInterruptResult : Obligations.ReturnFromInterruptResult := fun s => by
  have hindex : indexForced s (s.rtiPulled.normalise s.xw) :=
    (State.normalise_indexForced s.rtiPulled_not_widened).of_eq (s.rtiPulled_frame .x (by decide))
      (s.rtiPulled_frame .y (by decide))
  refine ⟨_, exec_rti s, s.rtiPulled_normalise_p, ?_, ?_, hindex, s.rtiPulled_normalise_spMoves,
    s.rtiPulled_normalise_frame⟩
  · rw [State.normalise_pc]
    exact s.rtiPulled_pc
  · rw [State.normalise_pbr]
    exact s.rtiPulled_pbr

/-! ## RTI right after an entry -/

/-- The bytes pushed are pulled last first (R80, R82). -/
theorem Pushed.pulledByte_eq_getElem {s t : State} {r : StackRule} {bs : List Byte} (h : Pushed s t r bs)
    (hs : s.StackOk) (hlen : bs.length < 256) {k : Nat} (h0 : 0 < k) (hk : k ≤ bs.length) :
    t.pulledByte r k = bs[bs.length - k] := by
  obtain ⟨hbytes, -⟩ := h.bytes
  rw [State.pulledByte, h.pullPtr hs hlen hk, State.stackPhys_eq, ← s.stackPhys_eq, hbytes _ (by omega)]

/-- What RTI pulls right after the entry: the status byte, the return address, and outside `emu8` the bank. -/
theorem State.interrupt_pulledByte {s : State} (hs : s.StackOk) (src : IntSource) (ret : Half) (brk : Bool) :
    (s.interrupt src ret brk).pulledByte .wrapping 1 = s.statusByte brk ∧
      (s.interrupt src ret brk).pulledByte .wrapping 2 = halfLo ret ∧
      (s.interrupt src ret brk).pulledByte .wrapping 3 = halfHi ret ∧
      (s.emu8 = false → (s.interrupt src ret brk).pulledByte .wrapping 4 = s.pbr) := by
  have hpushed := s.interrupt_pushed src ret brk
  rw [State.frameBytes] at hpushed
  cases he : s.emu8 with
  | true =>
    rw [he] at hpushed
    have hbyte {k : Nat} := hpushed.pulledByte_eq_getElem hs (by simp) (k := k)
    exact ⟨hbyte (by simp) (by simp), hbyte (by simp) (by simp), hbyte (by simp) (by simp), nofun⟩
  | false =>
    rw [he] at hpushed
    have hbyte {k : Nat} := hpushed.pulledByte_eq_getElem hs (by simp) (k := k)
    exact ⟨hbyte (by simp) (by simp), hbyte (by simp) (by simp), hbyte (by simp) (by simp),
      fun _ => hbyte (by simp) (by simp)⟩

theorem Status.with_widths {p : Status} (hm : p.m = true) (hx : p.x = true) : { p with m := true, x := true } = p := by
  obtain ⟨n, v, m, x, d, i, z, c⟩ := p
  obtain rfl : m = true := hm
  obtain rfl : x = true := hx
  rfl

/-- The status byte of a state that meets the invariant gives its P back: in `emu8` M and Xf are 1 there (R35, R36). -/
theorem State.statusPulled_statusByte {s u : State} (hs : s.FlagsOk) (he : u.emu8 = s.emu8) (brk : Bool) :
    u.statusPulled (s.statusByte brk) = s.p := by
  have hof : u.statusPulled (s.statusByte brk) = { Status.ofByte (s.statusByte brk) with
      m := u.emu8 || (Status.ofByte (s.statusByte brk)).m, x := u.emu8 || (Status.ofByte (s.statusByte brk)).x } := rfl
  rw [hof, State.statusByte_eq_pushedP, State.pushedP, he]
  cases h8 : s.emu8 with
  | true =>
    obtain ⟨hm, hx⟩ := hs h8
    rw [if_pos rfl, Status.ofByte_toByte]
    exact Status.with_widths hm hx
  | false =>
    rw [if_neg Bool.false_ne_true, Status.ofByte_toByte]
    rfl

/-- The low and the high byte of an address, as one number. -/
theorem half_toNat_of_bytes {pc ret : Half} {f : Nat → Byte} (h : pc.toNat = littleEndian f 2) (hlo : f 0 = halfLo ret)
    (hhi : f 1 = halfHi ret) : pc = ret := by
  apply BitVec.eq_of_toNat_eq
  rw [h, littleEndian_two, hlo, hhi, halfLo_toNat, halfHi_toNat]
  omega

/-- S that has moved down and then up again is back where it was, as it was in page 1 in `emu8` (R43). -/
theorem spMoves.back {s u t : State} {k n : Nat} (hs : s.StackOk) (hdown : spMoves s u k) (hup : spMoves u t n)
    (he : u.emu8 = s.emu8) (hkn : k + n = 65536) : t.sp = s.sp := by
  have hlt := s.sp.isLt
  apply BitVec.eq_of_toNat_eq
  rw [spMoves] at hdown hup
  rw [he] at hup
  cases h8 : s.emu8 with
  | true =>
    have hpage := hs.sp_div h8
    rw [h8, if_pos rfl] at hdown hup
    omega
  | false =>
    rw [h8, if_neg Bool.false_ne_true] at hdown hup
    omega

/-- X and Y that already fit in their width are not changed by an unchanged Xf (R25). -/
theorem indexForced.eq {s t : State} (h : indexForced s t) (hs : s.IndexOk) (hx : t.p.x = s.p.x) :
    t.x = s.x ∧ t.y = s.y := by
  obtain ⟨hnarrow, hwide⟩ := h
  cases hp : s.p.x with
  | true =>
    obtain ⟨hX, hY⟩ := hs hp
    obtain ⟨eX, eY⟩ := hnarrow (hx.trans hp)
    exact ⟨BitVec.eq_of_toNat_eq (eX.trans (Nat.mod_eq_of_lt hX)),
      BitVec.eq_of_toNat_eq (eY.trans (Nat.mod_eq_of_lt hY))⟩
  | false => exact hwide (hx.trans hp)

/-- Settles O54: RTI pulls what the entry has pushed; in `emu8` the banks that the entry clears are not pulled. -/
theorem interruptThenReturn : Obligations.InterruptThenReturn := by
  intro src ret brk s hinv
  have hentry := interrupt_frame src ret brk s
  have he := s.interrupt_emu8 src ret brk
  obtain ⟨hb1, hb2, hb3, hb4⟩ := State.interrupt_pulledByte hinv.stackOk src ret brk
  obtain ⟨u, hexec, hp, hpc, hpbr, hindex, hsp, hreturn⟩ := returnFromInterruptResult (s.interrupt src ret brk)
  have hstatus : u.p = s.p := by rw [hp, hb1, State.statusPulled_statusByte hinv.offStack.flagsOk he]
  have hback : u.sp = s.sp := by
    refine (s.interrupt_spMoves src ret brk).back hinv.stackOk hsp he ?_
    rw [he]
    split <;> rfl
  obtain ⟨hx, hy⟩ : u.x = s.x ∧ u.y = s.y := by
    have hforced : indexForced s u := hindex.of_eq (s.interrupt_x src ret brk) (s.interrupt_y src ret brk)
    exact hforced.eq hinv.offStack.indexOk (congrArg Status.x hstatus)
  have hall : unchangedBut [.sp, .p, .x, .y, .pbr, .dbr, .mem, .pc, .run] s u := (hentry.trans hreturn).mono (by decide)
  have hkept := (((hall.remove hback).remove hstatus).remove hx).remove hy
  refine ⟨u, hexec, half_toNat_of_bytes hpc hb2 hb3, ?_⟩
  cases h8 : s.emu8 with
  | true => exact hkept.mono (by decide)
  | false =>
    have hbank : u.pbr = s.pbr := by
      rw [hpbr, he, h8]
      exact hb4 h8
    have hdata : u.dbr = s.dbr := by
      have hcleared := s.interrupt_dbr src ret brk
      rw [h8] at hcleared
      exact Eq.trans (show u.dbr = _ from hreturn .dbr (by decide)) hcleared
    exact (hkept.remove hbank).remove hdata

/-! ## WAI, STP, NOP, WDM -/

theorem setRun_frame (v : RunState) (s : State) : unchangedBut [.run] s (s.setRun v) := by
  intro q hq
  cases q with
  | run => simp at hq
  | modes | mem => simp [Piece.same]
  | _ => rfl

/-- The one meaning that WAI and STP share: PC is past the instruction, and the processor does not run (R343, R344). -/
theorem advance_setRun_result (v : RunState) (s : State) :
    ((s.advance 1).setRun v).run = v ∧ pcMoves s ((s.advance 1).setRun v) 1 ∧
      unchangedBut [.run, .pc] s ((s.advance 1).setRun v) :=
  ⟨rfl, advance_pcMoves 1 s, ((advance_frame 1 s).trans (setRun_frame v _)).mono (by decide)⟩

/-- Settles O55: WAI and STP differ in the run state, NOP and WDM in their length. -/
theorem idleInstructionResult : Obligations.IdleInstructionResult := fun s _ =>
  ⟨⟨_, rfl, advance_setRun_result .waiting s⟩, ⟨_, rfl, advance_setRun_result .stopped s⟩,
    ⟨_, rfl, advance_pcMoves 1 s, advance_frame 1 s⟩, ⟨_, rfl, advance_pcMoves 2 s, advance_frame 2 s⟩⟩

end Sys2Proof.Machine

/-! # Proofs: interrupts at a boundary, waiting, abort and reset

Which step a boundary without reset chooses (R344, R364 to R368, R381, R390, R391); the aborted instruction (R378); and
reset, at a boundary and in the middle of a step (R410, R411, R414). -/

namespace Sys2Proof.Machine

/-! ## The boundary -/

theorem setNmi_frame (v : Bool) (s : State) : unchangedBut [.nmi] s (s.setNmi v) := by
  intro q hq
  cases q with
  | nmi => simp at hq
  | modes | mem => simp [Piece.same]
  | _ => rfl

theorem setAbort_frame (v : Bool) (s : State) : unchangedBut [.abort] s (s.setAbort v) := by
  intro q hq
  cases q with
  | abort => simp at hq
  | modes | mem => simp [Piece.same]
  | _ => rfl

theorem setInputs_frame (l : List Inputs) (s : State) : unchangedBut [.inputs] s (s.setInputs l) := by
  intro q hq
  cases q with
  | inputs => simp at hq
  | modes | mem => simp [Piece.same]
  | _ => rfl

theorem setMem_frame (m : List Host.Cell) (s : State) : unchangedBut [.mem] s (s.setMem m) := by
  intro q hq
  cases q with
  | mem => simp at hq
  | modes => simp [Piece.same]
  | _ => rfl

theorem setFreeIdx_frame (k : Nat) (s : State) : unchangedBut [.free] s (s.setFreeIdx k) := by
  intro q hq
  cases q with
  | free => simp at hq
  | modes | mem => simp [Piece.same]
  | _ => rfl

/-- The inputs have moved on and the bus record is empty. -/
theorem setInputs_setBus_frame (s : State) : unchangedBut [.inputs] s ((s.setInputs s.inputs.tail).setBus []) :=
  (setInputs_frame _ s).trans (setBus_frame [] _)

theorem latchNmi_frame (inp : Inputs) (s : State) : unchangedBut [.nmi] s (latchNmi inp s) := by
  unfold latchNmi
  split
  · exact (unchangedBut.refl s).mono (by decide)
  · exact setNmi_frame _ s

theorem atBoundary_frame (s : State) : unchangedBut [.nmi, .inputs] s (atBoundary s) :=
  ((setInputs_setBus_frame s).trans (latchNmi_frame _ _)).mono (by decide)

theorem atBoundary_of_no_edge {s : State} (h : (currentInputs s).nmiEdge = false) :
    atBoundary s = (s.setInputs s.inputs.tail).setBus [] := latchNmi_of_no_edge h _

theorem atBoundary_of_stopped {s : State} (h : s.run = .stopped) :
    atBoundary s = (s.setInputs s.inputs.tail).setBus [] := if_pos h

theorem step_of_no_reset {s : State} (h : (currentInputs s).res = .inactive) :
    step s = chooseStep (currentInputs s) (atBoundary s) := by rw [step, boundary, h]

/-! ## The choice of the next step -/

section Choice

variable {inp : Inputs} {s : State}

/-- Case (2) of R367. -/
theorem chooseStep_of_stopped (h : s.run = .stopped) : chooseStep inp s = .next s := if_pos h

/-- Case (3) of R367. -/
theorem chooseStep_of_abort (hrun : s.run ≠ .stopped) (h : s.abortPending = true) :
    chooseStep inp s = hardwareInterrupt .abort inp (s.setAbort false) := by simp [chooseStep, hrun, h]

/-- Case (4) of R367. -/
theorem chooseStep_of_nmi (hrun : s.run ≠ .stopped) (habort : s.abortPending = false) (h : s.nmiPending = true) :
    chooseStep inp s = hardwareInterrupt .nmi inp (s.setNmi false) := by simp [chooseStep, hrun, habort, h]

/-- Case (5) of R367. -/
theorem chooseStep_of_irq (hrun : s.run ≠ .stopped) (hlatch : noneLatched s) (hirq : inp.irq = true)
    (hp : s.p.i = false) : chooseStep inp s = hardwareInterrupt .irq inp s := by
  obtain ⟨hnmi, habort⟩ := hlatch
  simp [chooseStep, hrun, habort, hnmi, hirq, hp]

/-- A waiting processor with IRQ- high idles (R343). -/
theorem chooseStep_of_idle (hrun : s.run = .waiting) (hlatch : noneLatched s) (hirq : inp.irq = false) :
    chooseStep inp s = idleWaiting inp s := by
  obtain ⟨hnmi, habort⟩ := hlatch
  simp [chooseStep, hrun, habort, hnmi, hirq]

/-- Case (6) of R367: a masked IRQ- wakes the processor. -/
theorem chooseStep_of_wake (hrun : s.run = .waiting) (hlatch : noneLatched s) (hirq : inp.irq = true)
    (hp : s.p.i = true) : chooseStep inp s = instrStep inp (s.setRun .running) := by
  obtain ⟨hnmi, habort⟩ := hlatch
  simp [chooseStep, hrun, habort, hnmi, hirq, hp]

theorem hardwareInterrupt_of_no_abort (h : inp.abort = false) (src : IntSource) :
    hardwareInterrupt src inp s = .next (s.interrupt src s.pc false) := by simp [hardwareInterrupt, abortAsserted, h]

/-- The choice sees IRQ- and ABORT- only: RES- and NMI- are folded in before it (R360). -/
theorem chooseStep_congr {inp' : Inputs} (hirq : inp'.irq = inp.irq) (habort : inp'.abort = inp.abort) (s : State) :
    chooseStep inp' s = chooseStep inp s := by
  obtain ⟨res, irq, edge, abort⟩ := inp
  obtain ⟨res', irq', edge', abort'⟩ := inp'
  obtain rfl : irq' = irq := hirq
  obtain rfl : abort' = abort := habort
  rfl

end Choice

/-! ## Hardware interrupts -/

theorem State.pushPtr_congr {s u : State} (hsp : u.sp = s.sp) (he : u.emu8 = s.emu8) (r : StackRule) (k : Nat) :
    u.pushPtr r k = s.pushPtr r k := by
  apply BitVec.eq_of_toNat_eq
  rw [State.pushPtr_toNat, State.pushPtr_toNat, hsp, he]

/-- Bytes pushed from `u` are pushed from any state with the same memory, S and mode. -/
theorem pushedBytes.of_same {s u t : State} {r : StackRule} {bs : List Byte} (h : pushedBytes u t r bs)
    (hmem : ∀ a, Mem.read u.mem a = Mem.read s.mem a) (hsp : u.sp = s.sp) (he : u.emu8 = s.emu8) :
    pushedBytes s t r bs := by
  simp only [pushedBytes, State.stackPhys_eq, State.pushPtr_congr hsp he, hmem] at h ⊢
  exact h

/-- An entry from `u` is one from any state that differs from it only in the latches and the inputs. -/
theorem entersHandler.of_frame {s u t : State} {ret : Half} {brk : Bool} {v8 v16 vn : Nat}
    (h : entersHandler u t ret brk v8 v16 vn) (hframe : unchangedBut [.nmi, .abort, .inputs] s u) :
    entersHandler s t ret brk v8 v16 vn := by
  obtain ⟨he8, he16⟩ : u.e8 = s.e8 ∧ u.e16 = s.e16 := hframe .modes (by decide)
  have hsp : u.sp = s.sp := hframe .sp (by decide)
  have hp : u.p = s.p := hframe .p (by decide)
  have hpbr : u.pbr = s.pbr := hframe .pbr (by decide)
  have hdbr : u.dbr = s.dbr := hframe .dbr (by decide)
  have he : u.emu8 = s.emu8 := State.emu8_congr he16 he8
  have hemu16 : u.emu16 = s.emu16 := by rw [State.emu16, State.emu16, he16, he8]
  have hstatus : u.statusByte brk = s.statusByte brk := by rw [State.statusByte, State.statusByte, hp, he]
  simp only [entersHandler, spMoves, hsp, hp, hpbr, hdbr, he, hemu16, hstatus] at h ⊢
  obtain ⟨hbytes, hrest⟩ := h
  exact ⟨hbytes.of_same (hframe .mem (by decide)) hsp he, hrest⟩

/-- A hardware interrupt taken in `u`, which differs from `s` in the latches and the inputs only: the entry, with PC as
the return address and Break clear, as seen from `s` (R370, R371). -/
theorem hardwareInterrupt_result {inp : Inputs} {s u : State} (hinp : inp.abort = false)
    (hframe : unchangedBut [.nmi, .abort, .inputs] s u) (src : IntSource) :
    ∃ t, hardwareInterrupt src inp u = .next t ∧
      entersHandler s t s.pc false src.vecEmu8 src.vecEmu16 src.vecNative ∧ t.abortPending = u.abortPending ∧
      t.nmiPending = u.nmiPending ∧
      unchangedBut [.nmi, .abort, .mem, .sp, .p, .pbr, .dbr, .pc, .run, .inputs] s t := by
  have hpc : u.pc = s.pc := hframe .pc (by decide)
  refine ⟨_, hardwareInterrupt_of_no_abort hinp src, ?_, State.interrupt_abortPending .., State.interrupt_nmiPending ..,
    (hframe.trans (interrupt_frame src u.pc false u)).mono (by decide)⟩
  rw [hpc]
  exact (u.interrupt_entersHandler src s.pc false).of_frame hframe

/-- Settles O56: cases (3), (4) and (5) of R367 at the boundary, each a hardware interrupt with its latch cleared. -/
theorem hardwareInterruptStep : Obligations.HardwareInterruptStep := by
  intro s hres hinp hrun
  have hboundary : unchangedBut [.nmi, .abort, .inputs] s (atBoundary s) := (atBoundary_frame s).mono (by decide)
  have hrun' : (atBoundary s).run ≠ .stopped := by rwa [atBoundary_run]
  have hnmi' := atBoundary_nmiPending hrun
  have habort' := atBoundary_abortPending s
  rw [step_of_no_reset hres]
  refine ⟨fun habort => ?_, fun habort hnmi => ?_, fun habort hnmi hirq hi => ?_⟩
  · obtain ⟨t, ht, henters, hta, htn, hkept⟩ :=
      hardwareInterrupt_result hinp ((hboundary.trans (setAbort_frame false _)).mono (by decide)) .abort
    exact ⟨t, (chooseStep_of_abort hrun' (habort'.trans habort)).trans ht, henters, hta, htn.trans hnmi', hkept⟩
  · obtain ⟨t, ht, henters, hta, htn, hkept⟩ :=
      hardwareInterrupt_result hinp ((hboundary.trans (setNmi_frame false _)).mono (by decide)) .nmi
    have hkept' : unchangedBut [.abort, .nmi, .mem, .sp, .p, .pbr, .dbr, .pc, .run, .inputs] s t :=
      hkept.mono (by decide)
    exact ⟨t, (chooseStep_of_nmi hrun' (habort'.trans habort) (hnmi'.trans hnmi)).trans ht, henters, htn,
      hkept'.remove (hta.trans habort')⟩
  · obtain ⟨t, ht, henters, hta, htn, hkept⟩ := hardwareInterrupt_result hinp hboundary .irq
    obtain ⟨hlatched, -⟩ := Bool.or_eq_false_iff.1 hnmi
    have htn' : t.nmiPending = s.nmiPending := (htn.trans (hnmi'.trans hnmi)).trans hlatched.symm
    have hmasked : (atBoundary s).p.i = false := by rwa [atBoundary_p]
    exact ⟨t, (chooseStep_of_irq hrun' ⟨hnmi'.trans hnmi, habort'.trans habort⟩ hirq hmasked).trans ht, henters,
      (hkept.remove htn').remove (hta.trans habort')⟩

/-! ## Stopped and waiting processors -/

theorem idleWaiting_result (inp : Inputs) (s : State) :
    ∃ t, idleWaiting inp s = .next t ∧
      t.pc = (if inp.abort = true ∧ s.cfg.abortModel = .precise then s.pc - 1 else s.pc) ∧ unchangedBut [.pc] s t := by
  simp only [← abortAsserted_iff]
  unfold idleWaiting
  split
  · exact ⟨_, rfl, rfl, setPc_frame _ s⟩
  · exact ⟨_, rfl, rfl, (unchangedBut.refl s).mono (by decide)⟩

/-- Settles O57: cases (2) and (6) of R367, and the idle step between them. -/
theorem stoppedAndWaitingSteps : Obligations.StoppedAndWaitingSteps := by
  intro s hres
  rw [step_of_no_reset hres]
  refine ⟨fun hrun => ?_, fun hrun hlatch hedge hirq => ?_, fun hrun hlatch hcalm hirq i tail hdecode => ?_⟩
  · rw [atBoundary_of_stopped hrun]
    exact ⟨_, chooseStep_of_stopped hrun, setInputs_setBus_frame s⟩
  · obtain ⟨t, ht, hpc, hkept⟩ := idleWaiting_result (currentInputs s) ((s.setInputs s.inputs.tail).setBus [])
    rw [atBoundary_of_no_edge hedge]
    exact ⟨t, (chooseStep_of_idle (s := (s.setInputs s.inputs.tail).setBus []) hrun hlatch hirq).trans ht, hpc,
      ((setInputs_setBus_frame s).trans hkept).mono (by decide)⟩
  · have hboundary := atBoundary_of_calm hcalm
    obtain ⟨-, -, hmask, habort⟩ := hcalm
    have hwake := chooseStep_of_wake (s := (s.setInputs s.inputs.tail).setBus []) hrun hlatch hirq (hmask hirq)
    have hquiet : abortAsserted (currentInputs s) (((s.setInputs s.inputs.tail).setBus []).setRun .running) = false :=
      abortAsserted_eq_false habort
    have hfetch : (((s.setInputs s.inputs.tail).setBus []).setRun .running).fetchInstr = i :=
      fetchInstr_of_decode (s := s) hdecode
    rw [hboundary, hwake, instrStep_of_not_aborted hquiet, runInstr, hfetch]

/-! ## Steps whose writes are not settled -/

/-- Each byte is the one in `m` or the one in `new`, whatever the choices are. -/
theorem read_mixBytes (t : State) (new : List Host.Cell) (l : List Nat) (k : Nat) (m : List Host.Cell) (a : Nat) :
    Mem.read (mixBytes t new l k m) a = Mem.read m a ∨ Mem.read (mixBytes t new l k m) a = Mem.read new a := by
  induction l generalizing k m with
  | nil => exact .inl rfl
  | cons b l ih =>
    rw [mixBytes]
    obtain h | h := ih (k + 1) (if t.freeBit k then Mem.write m b (Mem.read new b) else m)
    · rw [h]
      split
      · by_cases hab : a = b
        · subst hab
          exact .inr (Mem.read_write_same ..)
        · exact .inl (Mem.read_write_other _ _ _ hab)
      · exact .inl rfl
    · exact .inr h

/-- A step whose writes are not settled leaves each byte old or new (R378 (c), R414). -/
theorem read_unsettled (s t : State) (a : Nat) :
    Mem.read (unsettled s t).mem a = Mem.read s.mem a ∨ Mem.read (unsettled s t).mem a = Mem.read t.mem a :=
  read_mixBytes t t.mem _ 0 s.mem a

theorem unsettled_frame (s t : State) : unchangedBut [.mem, .free] s (unsettled s t) :=
  (setMem_frame _ s).trans (setFreeIdx_frame _ _)

/-- An aborted instruction against the same instruction run to its end (R378). -/
theorem abortedInstr_result (s : State) :
    ∃ t u, abortedInstr s = .next t ∧ runInstr s = .next u ∧ t.abortPending = true ∧
      unchangedBut [.abort, .mem, .free] s t ∧
      ∀ a, Mem.read t.mem a = Mem.read s.mem a ∨ Mem.read t.mem a = Mem.read u.mem a := by
  obtain ⟨u, hu⟩ := runInstr_answers s
  refine ⟨((unsettled s u).setBus u.bus).setAbort true, u, by rw [abortedInstr, hu], hu, rfl, ?_, read_unsettled s u⟩
  exact (((unsettled_frame s u).trans (setBus_frame _ _)).trans (setAbort_frame true _)).mono (by decide)

/-- The state before a boundary with its inputs replaced. -/
def State.withInputs (s : State) (inp : Inputs) : State := s.setInputs (inp :: s.inputs.tail)

theorem State.currentInputs_withInputs (s : State) (inp : Inputs) : currentInputs (s.withInputs inp) = inp := rfl

/-- Other inputs with the same NMI- leave the same boundary. -/
theorem State.atBoundary_withInputs {s : State} {inp : Inputs} (h : inp.nmiEdge = (currentInputs s).nmiEdge) :
    atBoundary (s.withInputs inp) = atBoundary s := by
  rw [atBoundary, State.currentInputs_withInputs, latchNmi, h]
  rfl

/-- Settles O59: with ABORT- the step is the aborted instruction, and without it the boundary is calm. -/
theorem abortedInstructionStep : Obligations.AbortedInstructionStep := by
  intro s hprecise habort hres hedge hirq hlatch hrun
  obtain ⟨t, u, ht, hu, hset, hkept, hmem⟩ := abortedInstr_result ((s.setInputs s.inputs.tail).setBus [])
  refine ⟨t, u, ?_, ?_, hset, ((setInputs_setBus_frame s).trans hkept).mono (by decide), hmem⟩
  · have hchoice := chooseStep_of_running (s := (s.setInputs s.inputs.tail).setBus []) hrun hlatch hirq
    have hasserted : abortAsserted (currentInputs s) ((s.setInputs s.inputs.tail).setBus []) = true :=
      abortAsserted_iff.2 ⟨habort, hprecise⟩
    rw [step_of_no_reset hres, atBoundary_of_no_edge hedge, hchoice, instrStep, if_pos hasserted, ht]
  · have hcalm : calm (s.withInputs { currentInputs s with abort := false }) := ⟨hres, hedge, hirq, nofun⟩
    exact (step_of_calm hcalm hlatch hrun).trans hu

/-! ## Reset -/

/-- What reset initialises, and what it keeps (R410). -/
theorem State.resetSequence_initialises (s : State) :
    let t := s.resetSequence
    t.dr = 0 ∧ t.dbr = 0 ∧ t.pbr = 0 ∧ halfHi t.sp = 0x01 ∧ t.x.toNat < 256 ∧ t.y.toNat < 256 ∧ t.p.m = true ∧
      t.p.x = true ∧ t.p.d = false ∧ t.p.i = true ∧ t.e8 = true ∧ t.e16 = true ∧ t.run = .running ∧
      t.nmiPending = false ∧ t.abortPending = false ∧ t.cfg = s.cfg := by
  have hbyte (b : Byte) : (zextByte b).toNat < 256 := by
    rw [zextByte_toNat]
    exact b.isLt
  exact ⟨rfl, rfl, rfl, halfHi_joinBytes .., hbyte _, hbyte _, rfl, rfl, rfl, rfl, rfl, rfl, rfl, rfl, rfl, rfl⟩

theorem State.resetSequence_pc_toNat (s : State) :
    s.resetSequence.pc.toNat = (Mem.read s.mem 0xFFFC).toNat + 256 * (Mem.read s.mem 0xFFFD).toNat :=
  State.enterVector_pc_toNat _ (v := resetVector) (by decide)

/-- The registers and flags that reset does not initialise hold the values `u` (R411). -/
def HoldsUninit (u : Uninit) (t : State) : Prop :=
  t.a = u.a ∧ halfLo t.sp = u.sl ∧ lowByte t.x = u.xl ∧ lowByte t.y = u.yl ∧
    t.p.n = u.n ∧ t.p.v = u.v ∧ t.p.z = u.z ∧ t.p.c = u.c

theorem lowByte_zextByte (b : Byte) : lowByte (zextByte b) = b := by
  apply BitVec.eq_of_toNat_eq
  have hb := b.isLt
  rw [lowByte_toNat, zextByte_toNat, Nat.mod_eq_of_lt hb]

/-- What reset does not initialise takes the values that `RESET_DRAW` names (R411). -/
theorem State.resetSequence_holdsUninit (s : State) : HoldsUninit s.resetValues s.resetSequence :=
  ⟨rfl, halfLo_joinBytes .., lowByte_zextByte _, lowByte_zextByte _, rfl, rfl, rfl, rfl⟩

theorem State.resetValues_of_const {s : State} {u : Uninit} (h : s.cfg.resetDraw = .const u) : s.resetValues = u := by
  rw [State.resetValues, h]

/-- The values of the registers and flags that reset does not initialise, as they are now (R411). -/
def State.uninit (s : State) : Uninit where
  a := s.a
  xl := lowByte s.x
  yl := lowByte s.y
  sl := halfLo s.sp
  n := s.p.n
  v := s.p.v
  z := s.p.z
  c := s.p.c

theorem State.resetValues_of_preserve {s : State} (h : s.cfg.resetDraw = .preserve) : s.resetValues = s.uninit := by
  rw [State.resetValues, h]
  rfl

theorem State.uninit_of_frame {c : List Piece} {s u : State} (h : unchangedBut c s u)
    (hc : Piece.a ∉ c ∧ Piece.x ∉ c ∧ Piece.y ∉ c ∧ Piece.sp ∉ c ∧ Piece.p ∉ c) : u.uninit = s.uninit := by
  obtain ⟨ha, hx, hy, hsp, hp⟩ := hc
  have ea : u.a = s.a := h .a ha
  have ex : u.x = s.x := h .x hx
  have ey : u.y = s.y := h .y hy
  have esp : u.sp = s.sp := h .sp hsp
  have ep : u.p = s.p := h .p hp
  rw [State.uninit, State.uninit, ea, ex, ey, esp, ep]

/-- A step from `s` that is a reset from a state `u`, where `u` differs from `s` only in memory and in what no register
holds. `P` is whatever else is known of the state after it, such as its memory. -/
theorem reset_result {s u : State} (hstep : step s = .next u.resetSequence)
    (h : unchangedBut [.nmi, .inputs, .mem, .free] s u) {P : State → Prop} (hP : P u.resetSequence) :
    ∃ t, step s = .next t ∧ t.dr = 0 ∧ t.dbr = 0 ∧ t.pbr = 0 ∧ halfHi t.sp = 0x01 ∧
      t.x.toNat < 256 ∧ t.y.toNat < 256 ∧ t.p.m = true ∧ t.p.x = true ∧ t.p.d = false ∧ t.p.i = true ∧ t.e8 = true ∧
      t.e16 = true ∧ t.run = .running ∧ t.nmiPending = false ∧ t.abortPending = false ∧ t.cfg = s.cfg ∧
      t.pc.toNat = (Mem.read t.mem 0xFFFC).toNat + 256 * (Mem.read t.mem 0xFFFD).toNat ∧
      (∀ v : Uninit, s.cfg.resetDraw = .const v → HoldsUninit v t) ∧
      (s.cfg.resetDraw = .preserve → HoldsUninit s.uninit t) ∧ P t := by
  have hcfg : u.cfg = s.cfg := h .cfg (by decide)
  have hheld := u.resetSequence_holdsUninit
  obtain ⟨hdr, hdbr, hpbr, hsp, hx, hy, hm, hxf, hd, hi, he8, he16, hrun, hnmi, habort, hkept⟩ :=
    u.resetSequence_initialises
  refine ⟨_, hstep, hdr, hdbr, hpbr, hsp, hx, hy, hm, hxf, hd, hi, he8, he16, hrun, hnmi, habort, hkept.trans hcfg,
    u.resetSequence_pc_toNat, fun v hv => ?_, fun hv => ?_, hP⟩
  · rwa [State.resetValues_of_const ((congrArg Config.resetDraw hcfg).trans hv)] at hheld
  · rwa [State.resetValues_of_preserve ((congrArg Config.resetDraw hcfg).trans hv),
      State.uninit_of_frame h (by decide)] at hheld

/-- The inputs of the step that a reset in its middle abandons: those of the boundary but RES- and ABORT- (R412). -/
def State.abandonedInputs (s : State) : Inputs := { currentInputs s with res := .inactive, abort := false }

/-- A reset in the middle of a step, against the step it abandons (R414). -/
theorem resetMidStep_eq (s : State) :
    ∃ u, step (s.withInputs s.abandonedInputs) = .next u ∧
      resetMidStep s = .next (unsettled (atBoundary s) u).resetSequence := by
  have hstep : step (s.withInputs s.abandonedInputs) =
      chooseStep { currentInputs s with abort := false } (atBoundary s) := by
    rw [step_of_no_reset rfl, State.currentInputs_withInputs,
      State.atBoundary_withInputs (inp := s.abandonedInputs) rfl]
    exact chooseStep_congr rfl rfl _
  obtain ⟨u, hu⟩ | ⟨-, hab, -⟩ := chooseStep_cases { currentInputs s with abort := false } (atBoundary s)
  · exact ⟨u, hstep.trans hu, by rw [resetMidStep, hu]⟩
  · exact absurd (abortAsserted_iff.1 hab).1 Bool.false_ne_true

/-- Settles O58: reset at the boundary, or from the memory that the abandoned step has left unsettled. -/
theorem resetStep : Obligations.ResetStep := by
  intro s hactive
  have hboundary := atBoundary_frame s
  cases hres : (currentInputs s).res with
  | inactive => exact absurd hres hactive
  | atBoundary =>
    have hstep : step s = .next (atBoundary s).resetSequence := by rw [step, boundary, hres]
    exact reset_result hstep (hboundary.mono (by decide)) ⟨fun _ => hboundary .mem (by decide), nofun⟩
  | midStep =>
    obtain ⟨u, hu, hmid⟩ := resetMidStep_eq s
    have hstep : step s = .next (unsettled (atBoundary s) u).resetSequence := by rw [step, boundary, hres, hmid]
    have hmem (a : Nat) : Mem.read (unsettled (atBoundary s) u).mem a = Mem.read s.mem a ∨
        Mem.read (unsettled (atBoundary s) u).mem a = Mem.read u.mem a := by
      have hold : Mem.read (atBoundary s).mem a = Mem.read s.mem a := hboundary .mem (by decide) a
      exact hold ▸ read_unsettled (atBoundary s) u a
    exact reset_result hstep ((hboundary.trans (unsettled_frame _ u)).mono (by decide)) ⟨nofun, fun _ => ⟨u, hu, hmem⟩⟩

end Sys2Proof.Machine
